-- ==== Sys2Proof/Word.lean ====
section
/-! DEFINITION. The bit-vector types of the block's registers and of the command word (spec/10_state.md,
spec/30_encoding.md rule R91). -/

namespace Sys2Proof

/-- A byte: 8 bits (00_scope.md R14). -/
abbrev Byte := BitVec 8

/-- A 16-bit value: the length field and the CRC (30_encoding.md R104, R105). -/
abbrev Half := BitVec 16

/-- A 32-bit value: the `data` operand and the `int32`/`uint32` registers. -/
abbrev Word := BitVec 32

/-- A 64-bit value: `last_error` and `pid_raw` (10_state.md R30, R31). -/
abbrev DWord := BitVec 64

/-- A Hall reading: the three sensor lines as one 3-bit code (30_encoding.md R97). -/
abbrev HallReading := BitVec 3

/-- A command word: `op` in bits 35..32 and `data` in bits 31..0 (30_encoding.md R91). -/
abbrev CommandWord := BitVec 36

end Sys2Proof
end

