-- ==== Sys2Proof/Machine/Operands.lean ====
section
/-! DEFINITION. Operand values and the arithmetic primitives of the spec's pseudocode (spec/00_scope.md R14, R15).
Arithmetic is on mathematical integers; a result is stored in a register of the width its rule gives. -/

namespace Sys2Proof.Machine

/-- The value of a format-W operand, `sext_32(data)` (30_encoding.md R92), and of any `int32` register. -/
def wordValue (v : Word) : Int := v.toInt

/-- The value of an `int8` count or window slot (10_state.md R24, R25). -/
def countValue (b : Byte) : Int := b.toInt

/-- The value of an `int64` register (10_state.md R30, R31). -/
def dwordValue (v : DWord) : Int := v.toInt

/-- An integer stored in a 32-bit register. -/
def toWord (v : Int) : Word := BitVec.ofInt 32 v

/-- An integer stored in a 64-bit register. -/
def toDWord (v : Int) : DWord := BitVec.ofInt 64 v

/-- `clamp(v, lo, hi)` (R15). -/
def clamp (v lo hi : Int) : Int := if v < lo then lo else if hi < v then hi else v

/-- `trunc_div(a, b)` for `b > 0`: the quotient rounded toward zero (R15). -/
def truncDiv (a : Int) (b : Nat) : Int := if 0 ≤ a then a / b else -(-a / b)

/-- `asr(v, s)`: the arithmetic right shift, `floor(v / 2^s)` (R15). -/
def asr (v : Int) (s : Nat) : Int := v / 2 ^ s

/-- A valid Hall reading, 1 to 6 (30_encoding.md R97). -/
def validReading (r : HallReading) : Bool := r != 0 && r != 7

end Sys2Proof.Machine
end

