-- ==== Sys2Proof/Config.lean ====
section
/-! DEFINITION. The implementation parameters (spec/00_scope.md R11), their well-formedness (R12), and the
configuration of the hardware: the defaults of R11, with every parameter the spec marks OPEN left free.
No parameter is a register and none changes while the block runs (R11, 10_state.md R43). -/

namespace Sys2Proof

/-- `COUNT_MAX`, the largest magnitude of the per-tick count (R11; 8-bit count, decision D11). -/
def countMax : Nat := 127

/-- `COUNT_SENTINEL` = −128, the overflow mark of the 8-bit per-tick count (R11). -/
def countSentinel : Byte := 0x80#8

/-- `MAX_PARAMS`, the most parameter bytes of one packet before stuffing (R11; clause (g) of R12 fixes it). -/
def maxParams : Nat := 8

/-- `MAX_STUFFED`, the most parameter bytes after stuffing (R11, 43_packet_framer.md R212). -/
def maxStuffed : Nat := maxParams + maxParams / 3

/-- The size of the transmit buffer, the longest packet (43_packet_framer.md R212). -/
def txSize : Nat := 10 + maxStuffed

/-- `BROADCAST_ID` (R11). -/
def broadcastId : Byte := 0xFE#8

/-- `STATUS_INSTR`, the instruction byte of a response (R11). -/
def statusInstr : Byte := 0x55#8

/-- The parameters of R11 that can differ between implementations. -/
structure Params where
  /-- `WINDOW_LENGTH`, written W. -/
  windowLength : Nat
  /-- `TICK_HZ`. -/
  tickHz : Nat
  /-- `MAX_PER_TICK_COUNT`. -/
  maxPerTickCount : Nat
  /-- `HALL_FWD`: the forward successors of the readings 1 to 6, in that order. -/
  hallFwd : Vector HallReading 6
  /-- `KP`. -/
  kp : Int
  /-- `KI`. -/
  ki : Int
  /-- `KD`. -/
  kd : Int
  /-- `KF`. -/
  kf : Int
  /-- `I_BOUND`. -/
  iBound : Nat
  /-- `SCALE_SHIFT`. -/
  scaleShift : Nat
  /-- `THROTTLE_MAX`. -/
  throttleMax : Nat
  /-- `SETPOINT_MAX`. -/
  setpointMax : Nat
  /-- `CRC_POLY`. -/
  crcPoly : Half
  /-- `CRC_INIT`. -/
  crcInit : Half
  /-- `CRC_XOROUT`. -/
  crcXorOut : Half
deriving DecidableEq, Repr, Inhabited

/-- Entry `r` of the forward-successor table; the table has no entry for 0 and 7 (20_memory.md R62), and
the 0 given there is never used as a successor. -/
def Params.succ (p : Params) (r : HallReading) : HallReading :=
  if r = 0 then 0 else p.hallFwd[r.toNat - 1]?.getD 0

/-- R12 clause (a). -/
def Params.okWindow (p : Params) : Bool := decide (1 ≤ p.windowLength)

/-- R12 clause (b). -/
def Params.okMaxPerTick (p : Params) : Bool := decide (1 ≤ p.maxPerTickCount ∧ p.maxPerTickCount ≤ countMax)

/-- R12 clause (c), "so that the running sum and its scaled value fit 32 signed bits". `TICK_HZ` is a positive
rate: its period `1 / TICK_HZ` exists (70_reset_and_hazards.md R313). DEDUCED (log 16). -/
def Params.okScaled (p : Params) : Bool :=
  decide (1 ≤ p.tickHz) && decide (p.windowLength * countMax * p.tickHz < 2 ^ 31)

/-- The walk 1, succ 1, succ (succ 1), … of six readings along `HALL_FWD`. -/
def Params.hallWalk (p : Params) : List HallReading :=
  let a := p.succ 1
  let b := p.succ a
  let c := p.succ b
  let d := p.succ c
  let e := p.succ d
  [1, a, b, c, d, e]

/-- R12 clause (d): the walk from 1 meets six different valid readings and then returns to 1, so the table
is a permutation of 1 to 6 with one cycle of length 6. -/
def Params.okHallTable (p : Params) : Bool :=
  p.hallWalk.all (fun r => r != 0 && r != 7) && decide p.hallWalk.Nodup
    && p.succ (p.succ (p.succ (p.succ (p.succ (p.succ 1))))) == 1

/-- A 32-bit signed number, the range R12 clause (e) gives each gain. -/
def isInt32 (v : Int) : Bool := decide (-2 ^ 31 ≤ v ∧ v ≤ 2 ^ 31 - 1)

/-- R12 clause (e). -/
def Params.okRanges (p : Params) : Bool :=
  decide (p.iBound ≤ 2 ^ 31 - 1) && decide (p.throttleMax ≤ 2 ^ 31 - 1) && decide (p.setpointMax ≤ 2 ^ 31 - 1)
    && decide (p.scaleShift ≤ 63) && isInt32 p.kp && isInt32 p.ki && isInt32 p.kd && isInt32 p.kf

/-- R12 clause (f): the four-term sum fits 64 signed bits for every input. -/
def Params.okSum (p : Params) : Bool :=
  decide ((p.kp.natAbs + 2 * p.kd.natAbs) * (p.setpointMax + 2 ^ 31) + p.ki.natAbs * p.iBound
    + p.kf.natAbs * p.setpointMax < 2 ^ 63)

/-- R12: the configuration is well formed (clause (g) holds because `maxParams` is 8). -/
def Params.ok (p : Params) : Bool :=
  p.okWindow && p.okMaxPerTick && p.okScaled && p.okHallTable && p.okRanges && p.okSum

/-- A well-formed configuration. R12 says the model is defined only for these and refuses any other: an
ill-formed one has no proof of `ok` and cannot be built. -/
abbrev Config := {p : Params // p.ok = true}

/-- The parameters R11 marks OPEN, which no source gives a value. -/
structure OpenParams where
  /-- `MAX_PER_TICK_COUNT`. -/
  maxPerTickCount : Nat
  /-- `HALL_FWD`. -/
  hallFwd : Vector HallReading 6
  /-- `KP`. -/
  kp : Int
  /-- `KI`. -/
  ki : Int
  /-- `KD`. -/
  kd : Int
  /-- `KF`. -/
  kf : Int
  /-- `I_BOUND`. -/
  iBound : Nat
  /-- `SCALE_SHIFT`. -/
  scaleShift : Nat
  /-- `THROTTLE_MAX`. -/
  throttleMax : Nat
  /-- `SETPOINT_MAX`. -/
  setpointMax : Nat
  /-- `CRC_POLY`. -/
  crcPoly : Half
  /-- `CRC_INIT`. -/
  crcInit : Half
  /-- `CRC_XOROUT`. -/
  crcXorOut : Half
deriving DecidableEq, Repr, Inhabited

/-- The parameters with the OPEN ones given and the default ones at R11's value for the hardware
(`WINDOW_LENGTH` = 500, `TICK_HZ` = 1000). -/
def Params.ofOpen (o : OpenParams) : Params where
  windowLength := 500
  tickHz := 1000
  maxPerTickCount := o.maxPerTickCount
  hallFwd := o.hallFwd
  kp := o.kp
  ki := o.ki
  kd := o.kd
  kf := o.kf
  iBound := o.iBound
  scaleShift := o.scaleShift
  throttleMax := o.throttleMax
  setpointMax := o.setpointMax
  crcPoly := o.crcPoly
  crcInit := o.crcInit
  crcXorOut := o.crcXorOut

/-- The OPEN parameters of the test configuration `CFG-A` (R13): the default Hall cycle
1→3→2→6→4→5→1 (40_hall_decoder.md R131), the gains of R13, and the CRC profile `CCITT`
(43_packet_framer.md R201). These are the spec's own test values, not values of the hardware. -/
def OpenParams.cfgA : OpenParams where
  maxPerTickCount := 127
  hallFwd := #v[3, 6, 2, 5, 1, 4]
  kp := 256
  ki := 16
  kd := 64
  kf := 32
  iBound := 10000
  scaleShift := 8
  throttleMax := 1000
  setpointMax := 20000
  crcPoly := 0x1021
  crcInit := 0
  crcXorOut := 0

theorem OpenParams.cfgA_ok : (Params.ofOpen OpenParams.cfgA).ok = true := by decide

/-- The OPEN parameters of the hardware: a constant without a body, so nothing can be proved of its value. -/
opaque Config.openParams : OpenParams

/-- The OPEN parameters as far as they form a well-formed configuration. Whichever well-formed values the
hardware has, `Config.openParams` may be those values; only for ill-formed ones, which R12 excludes, do
other well-formed ones stand in. -/
def Config.chosen : OpenParams :=
  if (Params.ofOpen Config.openParams).ok = true then Config.openParams else OpenParams.cfgA

theorem Config.chosen_ok : (Params.ofOpen Config.chosen).ok = true := by
  unfold Config.chosen
  split
  · assumption
  · exact OpenParams.cfgA_ok

/-- The configuration of the hardware: any well-formed one with R11's defaults. -/
def Config.hardware : Config := ⟨Params.ofOpen Config.chosen, Config.chosen_ok⟩

/-- `CFG-A` of R13 with CRC profile `CCITT`. -/
def Config.cfgA : Config := ⟨Params.ofOpen OpenParams.cfgA, OpenParams.cfgA_ok⟩

/-- `CFG-S` of R13: `CFG-A` with a window of 4 slots and `MAX_PER_TICK_COUNT` = 2. -/
def Config.cfgS : Config :=
  ⟨{ Params.ofOpen OpenParams.cfgA with windowLength := 4, maxPerTickCount := 2 }, by decide⟩

/-- `CFG-3` of R13: `CFG-A` with a window of 3 slots. -/
def Config.cfg3 : Config := ⟨{ Params.ofOpen OpenParams.cfgA with windowLength := 3 }, by decide⟩

/-- `CFG-A` with the CRC profile `DXL2` (43_packet_framer.md R201). -/
def Config.cfgDxl : Config := ⟨{ Params.ofOpen OpenParams.cfgA with crcPoly := 0x8005 }, by decide⟩

end Sys2Proof
end

