-- ==== Sys2Proof/Machine/Codec.lean ====
section
/-! DEFINITION. The pure functions of the packet framer: the CRC-16 (spec/43_packet_framer.md R202 to R204),
byte stuffing and de-stuffing (R205 to R207) and the frame of a packet (spec/30_encoding.md R103). -/

namespace Sys2Proof.Machine

/-- The low byte of a 16-bit field, sent first (20_memory.md R67). -/
def lowByte (h : Half) : Byte := h.extractLsb' 0 8

/-- The high byte of a 16-bit field, sent second (20_memory.md R67). -/
def highByte (h : Half) : Byte := h.extractLsb' 8 8

/-- A 16-bit field from its two bytes, `lo + 256 × hi` (30_encoding.md R104, R111). -/
def ofBytes (lo hi : Byte) : Half := hi ++ lo

/-- One turn of the loop of R202: shift left, and XOR the generator when bit 15 was set. -/
def crcShift (poly c : Half) : Half := if c.msb then (c <<< 1) ^^^ poly else c <<< 1

/-- `crc_byte(c, b)` (R202): the byte enters at the top, then eight shifts. -/
def crcByte (poly c : Half) (b : Byte) : Half :=
  let s := crcShift poly
  s (s (s (s (s (s (s (s (c ^^^ (b ++ 0x00#8)))))))))

/-- The CRC ROM entry `T[i]` (20_memory.md R63, R203). -/
def crcTable (poly : Half) (i : Byte) : Half := crcByte poly 0 i

/-- The table-driven form of `crc_byte` (R203). -/
def crcByteByTable (poly c : Half) (b : Byte) : Half := (c <<< 8) ^^^ crcTable poly (highByte c ^^^ b)

/-- The running CRC value over a byte sequence (R204). -/
def crcRun (poly c : Half) (bs : List Byte) : Half := bs.foldl (crcByte poly) c

/-- `crc16` of a byte sequence (R204). -/
def crc16 (p : Params) (bs : List Byte) : Half := crcRun p.crcPoly p.crcInit bs ^^^ p.crcXorOut

/-- The header `FF FF FD 00` (30_encoding.md R103). -/
def header : List Byte := [0xFF, 0xFF, 0xFD, 0x00]

/-- `CRC_HDR`: the running value after the header (R204). -/
def crcHdr (p : Params) : Half := crcRun p.crcPoly p.crcInit header

/-- `win(m, b)` (R205): how much of `FF FF FD` the tail of the bytes matches after `b`. The automaton is
never asked at 3; its callers restart it there. -/
def win (m : Fin 4) (b : Byte) : Fin 4 :=
  match m with
  | 0 => if b = 0xFF then 1 else 0
  | 1 => if b = 0xFF then 2 else 0
  | 2 => if b = 0xFF then 2 else if b = 0xFD then 3 else 0
  | 3 => 0

/-- `stuff` from match count `m` on (R205): the stuffed bytes and how many were inserted. -/
def stuffFrom (m : Fin 4) : List Byte → List Byte × Nat
  | [] => ([], 0)
  | b :: bs =>
    if win m b = 3 then
      let r := stuffFrom 0 bs
      (b :: 0xFD :: r.1, r.2 + 1)
    else
      let r := stuffFrom (win m b) bs
      (b :: r.1, r.2)

/-- `stuff(p_0 … p_{n-1})` (R205): the match starts empty at the first parameter byte. -/
def stuff (ps : List Byte) : List Byte × Nat := stuffFrom 0 ps

/-- De-stuffing from match count `m` on (R207): none when the sequence is malformed. -/
def destuffFrom (m : Fin 4) : List Byte → Option (List Byte)
  | [] => if m = 3 then none else some []
  | b :: bs =>
    if m = 3 then
      if b = 0xFD then destuffFrom 0 bs else none
    else (destuffFrom (win m b) bs).map (b :: ·)

/-- De-stuffing, the inverse of `stuff` (R207). -/
def destuff (bs : List Byte) : Option (List Byte) := destuffFrom 0 bs

/-- The length field for `n` parameters and `k` inserted bytes (R211). -/
def lenField (n k : Nat) : Half := BitVec.ofNat 16 (n + 3 + k)

/-- Every byte of a packet before its CRC field, `pre` of R210 line 5. -/
def framePre (id instr : Byte) (params : List Byte) : List Byte :=
  let r := stuff params
  let len := lenField params.length r.2
  header ++ [id, lowByte len, highByte len, instr] ++ r.1

/-- The two bytes of the CRC field, low byte first (30_encoding.md R105). -/
def crcField (c : Half) : List Byte := [lowByte c, highByte c]

/-- A whole packet, `pkt` of R210 line 7: the CRC covers every byte before it (R213). -/
def framePacket (p : Params) (id instr : Byte) (params : List Byte) : List Byte :=
  let pre := framePre id instr params
  pre ++ crcField (crc16 p pre)

end Sys2Proof.Machine
end

