-- ==== Sys2Proof/Syntax.lean ====
section
/-! DEFINITION. The instructions: one constructor per row of spec/opcode_table.json, with the operands of the
row's format (spec/30_encoding.md R92, R93, R103, R106). -/

namespace Sys2Proof

/-- The operations of the command port (R93) and the packet instructions of the servo packet (R106). -/
inductive Instr where
  /-- `NOP` (44_system_ops.md R260). -/
  | nop
  /-- `HALL r` (40_hall_decoder.md R133). -/
  | hall (r : HallReading)
  /-- `TICK` (41_velocity_window.md R153). -/
  | tick
  /-- `SETPT v` (42_pid.md R181); `v` is read as a two's-complement number. -/
  | setpt (v : Word)
  /-- `PIDSTEP current` (42_pid.md R184); `current` is read as a two's-complement number. -/
  | pidstep (current : Word)
  /-- `CTICK` (41_velocity_window.md R161). -/
  | ctick
  /-- `PPUSH b` (43_packet_framer.md R208). -/
  | ppush (b : Byte)
  /-- `PCLR` (43_packet_framer.md R209). -/
  | pclr
  /-- `BUILD id, instr` (43_packet_framer.md R210). -/
  | build (id : Byte) (instr : Byte)
  /-- `RXARM id` (43_packet_framer.md R215). -/
  | rxarm (id : Byte)
  /-- `RXBYTE b` (43_packet_framer.md R216). -/
  | rxbyte (b : Byte)
  /-- `RXTMO` (43_packet_framer.md R225). -/
  | rxtmo
  /-- The reserved operation code 0xC (44_system_ops.md R262). -/
  | reservedC
  /-- The reserved operation code 0xD (44_system_ops.md R262). -/
  | reservedD
  /-- The reserved operation code 0xE (44_system_ops.md R262). -/
  | reservedE
  /-- `RESET` (44_system_ops.md R261). -/
  | reset
  /-- `PKT.WRITE`, instruction byte 0x03, with the parameters before stuffing (43_packet_framer.md R229). -/
  | pktWrite (id : Byte) (params : List Byte)
  /-- `PKT.REG_WRITE`, instruction byte 0x04 (43_packet_framer.md R230). -/
  | pktRegWrite (id : Byte) (params : List Byte)
  /-- `PKT.ACTION`, instruction byte 0x05 (43_packet_framer.md R231). -/
  | pktAction (id : Byte) (params : List Byte)
  /-- `PKT.FACTORY_RESET`, instruction byte 0x06 (43_packet_framer.md R232). -/
  | pktFactoryReset (id : Byte) (params : List Byte)
  /-- `PKT.STATUS`, instruction byte 0x55, with the CRC field as received (43_packet_framer.md R233). -/
  | pktStatus (id : Byte) (params : List Byte) (crc : Half)
deriving DecidableEq, Repr

end Sys2Proof
end

