-- ==== Sys2Proof/WellFormed.lean ====
section
/-! DEFINITION. Well-formed instructions. The operands of a command word are well formed by their widths
(spec/30_encoding.md R92); a packet has at most `MAX_PARAMS` parameters before stuffing
(spec/00_scope.md R11, spec/43_packet_framer.md R212). The configuration's checks are in Config.lean. -/

namespace Sys2Proof

/-- At most `MAX_PARAMS` parameter bytes (43_packet_framer.md R212). -/
def paramsFit (params : List Byte) : Bool := decide (params.length ≤ maxParams)

/-- The instruction's operands are such as the encoding admits. -/
def Instr.wellFormed : Instr → Bool
  | .nop => true
  | .hall _ => true
  | .tick => true
  | .setpt _ => true
  | .pidstep _ => true
  | .ctick => true
  | .ppush _ => true
  | .pclr => true
  | .build _ _ => true
  | .rxarm _ => true
  | .rxbyte _ => true
  | .rxtmo => true
  | .reservedC => true
  | .reservedD => true
  | .reservedE => true
  | .reset => true
  | .pktWrite _ params => paramsFit params
  | .pktRegWrite _ params => paramsFit params
  | .pktAction _ params => paramsFit params
  | .pktFactoryReset _ params => paramsFit params
  | .pktStatus _ params _ => paramsFit params

end Sys2Proof
end

