-- ==== Sys2Proof/Decode.lean ====
section
/-! DEFINITION. What the environment presents to the block, its decoding, total on every command word
(spec/30_encoding.md R94) and on every byte string given as a packet (R103, R106, R107), and the encoder. -/

namespace Sys2Proof

open Sys2Proof.Machine

/-- What the environment presents: the two encoding spaces of R90. A packet of a block-to-servo instruction
is presented up to its CRC field, which `BUILD` computes (43_packet_framer.md R210 line 6); a received
`PKT.STATUS` packet is presented whole. -/
inductive Request where
  /-- A command word at the command port (R91). -/
  | word (w : CommandWord)
  /-- The bytes of a servo packet (R103). -/
  | packet (bytes : List Byte)
deriving DecidableEq, Repr

/-- The bytes a request carries on the serial line; a command word carries none. -/
def Request.lineBytes : Request → List Byte
  | .word _ => []
  | .packet bytes => bytes

/-- Why a byte string is no packet instruction of R103 to R107. -/
inductive DecodeError where
  /-- Fewer bytes than header, id, length and instruction take. -/
  | truncated
  /-- The first four bytes are not `FF FF FD 00`. -/
  | badHeader
  /-- The length field is outside 3..13 (R107) or does not agree with the number of bytes. -/
  | badLength
  /-- The instruction byte is none of the five of R106. -/
  | unknownInstruction
  /-- `FF FF FD` among the parameters is not followed by `FD` (R107). -/
  | badStuffing
  /-- More than `MAX_PARAMS` parameters after de-stuffing. -/
  | paramOverflow
deriving DecidableEq, Repr

/-! ### The command word -/

/-- `cmd[35:32] = op` (R91). -/
def opField (w : CommandWord) : BitVec 4 := w.extractLsb' 32 4

/-- `cmd[31:0] = data` (R91). -/
def dataField (w : CommandWord) : Word := w.extractLsb' 0 32

/-- Format H: `r = data[2:0]` (R92). -/
def fieldH (data : Word) : HallReading := data.extractLsb' 0 3

/-- Formats B and K: `data[7:0]` (R92). -/
def fieldB (data : Word) : Byte := data.extractLsb' 0 8

/-- Format K: `instr = data[15:8]` (R92). -/
def fieldInstr (data : Word) : Byte := data.extractLsb' 8 8

/-- The operation of a command word, selected by its top four bits alone (R93, R94). -/
def decodeWord (w : CommandWord) : Instr :=
  let data := dataField w
  match (opField w).toNat with
  | 0x0 => .nop
  | 0x1 => .hall (fieldH data)
  | 0x2 => .tick
  | 0x3 => .setpt data
  | 0x4 => .pidstep data
  | 0x5 => .ctick
  | 0x6 => .ppush (fieldB data)
  | 0x7 => .pclr
  | 0x8 => .build (fieldB data) (fieldInstr data)
  | 0x9 => .rxarm (fieldB data)
  | 0xA => .rxbyte (fieldB data)
  | 0xB => .rxtmo
  | 0xC => .reservedC
  | 0xD => .reservedD
  | 0xE => .reservedE
  | _ => .reset

/-! ### The servo packet -/

/-- The de-stuffed parameters of a packet's parameter region, at most `MAX_PARAMS` of them. -/
def packetParams (body : List Byte) : Except DecodeError (List Byte) :=
  match destuff body with
  | none => .error .badStuffing
  | some params => if paramsFit params then .ok params else .error .paramOverflow

/-- The four instructions the block sends (R106), by instruction byte. -/
def sentInstr (instr id : Byte) (params : List Byte) : Option Instr :=
  if instr = 0x03 then some (.pktWrite id params)
  else if instr = 0x04 then some (.pktRegWrite id params)
  else if instr = 0x05 then some (.pktAction id params)
  else if instr = 0x06 then some (.pktFactoryReset id params)
  else none

/-- A packet after its length field: `m` stuffed parameter bytes, and for `PKT.STATUS` the CRC field. -/
def decodeBody (id instr : Byte) (m : Nat) (rest : List Byte) : Except DecodeError Instr :=
  if instr = statusInstr then
    match rest.drop m with
    | [lo, hi] =>
      match packetParams (rest.take m) with
      | .error e => .error e
      | .ok params => .ok (.pktStatus id params (ofBytes lo hi))
    | _ => .error .badLength
  else if rest.length ≠ m then .error .badLength
  else
    match packetParams rest with
    | .error e => .error e
    | .ok params =>
      match sentInstr instr id params with
      | none => .error .unknownInstruction
      | some i => .ok i

/-- The packet instruction of a byte string (R103 to R107). -/
def decodePacket (bytes : List Byte) : Except DecodeError Instr :=
  match bytes with
  | h0 :: h1 :: h2 :: h3 :: id :: lo :: hi :: instr :: rest =>
    if [h0, h1, h2, h3] ≠ header then .error .badHeader
    else
      let len := (ofBytes lo hi).toNat
      if len < 3 ∨ 3 + maxStuffed < len then .error .badLength
      else decodeBody id instr (len - 3) rest
  | _ => .error .truncated

/-- The instruction of a request. -/
def decode : Request → Except DecodeError Instr
  | .word w => .ok (decodeWord w)
  | .packet bytes => decodePacket bytes

/-! ### The encoder -/

/-- `op << 32 | data` (R112). -/
def commandWord (op : BitVec 4) (data : Word) : CommandWord := op ++ data

/-- The request of an instruction; the bits of `data` its format does not name are zero (R112). -/
def encode : Instr → Request
  | .nop => .word (commandWord 0x0 0)
  | .hall r => .word (commandWord 0x1 (r.setWidth 32))
  | .tick => .word (commandWord 0x2 0)
  | .setpt v => .word (commandWord 0x3 v)
  | .pidstep current => .word (commandWord 0x4 current)
  | .ctick => .word (commandWord 0x5 0)
  | .ppush b => .word (commandWord 0x6 (b.setWidth 32))
  | .pclr => .word (commandWord 0x7 0)
  | .build id instr => .word (commandWord 0x8 ((instr ++ id).setWidth 32))
  | .rxarm id => .word (commandWord 0x9 (id.setWidth 32))
  | .rxbyte b => .word (commandWord 0xA (b.setWidth 32))
  | .rxtmo => .word (commandWord 0xB 0)
  | .reservedC => .word (commandWord 0xC 0)
  | .reservedD => .word (commandWord 0xD 0)
  | .reservedE => .word (commandWord 0xE 0)
  | .reset => .word (commandWord 0xF 0)
  | .pktWrite id params => .packet (framePre id 0x03 params)
  | .pktRegWrite id params => .packet (framePre id 0x04 params)
  | .pktAction id params => .packet (framePre id 0x05 params)
  | .pktFactoryReset id params => .packet (framePre id 0x06 params)
  | .pktStatus id params crc => .packet (framePre id statusInstr params ++ crcField crc)

/-! ### A row of the opcode table -/

/-- The packet whose byte 7 is `instr` and whose operands are all zero: id 0, no parameters (so length 3), and
for `PKT.STATUS` a CRC field of zeros. The header and the length are fixed parts of the frame (R103, R104). -/
def tablePacket (instr : Byte) : List Byte :=
  header ++ [0x00, 0x03, 0x00, instr] ++ (if instr = statusInstr then crcField 0 else [])

/-- The request of an opcode-table row's bits: a row of one byte is a packet instruction byte (R106), any other
row a command word (R91). -/
def tableRequest (nbits w : Nat) : Request :=
  if nbits ≤ 8 then .packet (tablePacket (BitVec.ofNat 8 w)) else .word (BitVec.ofNat 36 w)

/-- The instruction the decoder reads from an opcode-table row's bits. -/
def decodeTableWord (nbits w : Nat) : Option Instr :=
  match decode (tableRequest nbits w) with
  | .ok i => some i
  | .error _ => none

end Sys2Proof
end

