-- ==== Sys2Proof/Machine/Memory.lean ====
section
/-! DEFINITION. The block's byte memories, the window RAM and the transmit buffer (spec/20_memory.md R60), as
lists of address and byte pairs in one canonical form. Both hold zeros after reset (spec/10_state.md R44), so an
unlisted address reads as zero. -/

namespace Sys2Proof.Machine

/-- A memory: the cells that do not hold zero, addresses strictly rising. -/
abbrev Memory := List Host.Cell

/-- What an unlisted address reads as: the reset contents of both memories (10_state.md R44). -/
def Memory.blank : Byte := 0

/-- The byte at an address. -/
def Memory.read (m : Memory) (a : Nat) : Byte :=
  match m with
  | [] => Memory.blank
  | c :: rest => if c.1 = a then c.2 else Memory.read rest a

/-- A new cell in its place among the rising addresses. -/
def Memory.insert (m : Memory) (a : Nat) (b : Byte) : Memory :=
  match m with
  | [] => [(a, b)]
  | c :: rest => if a < c.1 then (a, b) :: c :: rest else c :: Memory.insert rest a b

/-- Store a byte: the address's old cell goes, and a cell is listed only when the byte is not the blank one. -/
def Memory.write (m : Memory) (a : Nat) (b : Byte) : Memory :=
  let others := m.filter (fun c => c.1 != a)
  if b = Memory.blank then others else Memory.insert others a b

/-- Store bytes at rising addresses. -/
def Memory.writeBytes (m : Memory) (a : Nat) (bytes : List Byte) : Memory :=
  match bytes with
  | [] => m
  | b :: bs => Memory.writeBytes (Memory.write m a b) (a + 1) bs

/-- The first `n` bytes. -/
def Memory.readBytes (m : Memory) (n : Nat) : List Byte := (List.range n).map (Memory.read m)

/-- The canonical form: addresses strictly rising, and no cell equal to what an unlisted address reads as. -/
abbrev Memory.wf (m : Memory) : Prop :=
  m.Pairwise (fun c d => c.1 < d.1) ∧ ∀ c ∈ m, c.2 ≠ Memory.blank

end Sys2Proof.Machine
end

