-- ==== Sys2Proof/Machine/State.lean ====
section
/-! DEFINITION. The state of one block instance as plain data (spec/10_state.md R20 to R37), its reset value (R44),
and the reasons a step of the model can stop. Code values of the small enumerations are in Flags.lean. -/

namespace Sys2Proof.Machine

/-- MotionEvent (10_state.md R23, 30_encoding.md R98). -/
inductive MotionEvent where
  | noTransition | forward | backward | error
deriving DecidableEq, Repr

/-- The error latch (10_state.md R26, 30_encoding.md R99). -/
inductive ErrLevel where
  | none | soft | hard
deriving DecidableEq, Repr

/-- The fault cause (10_state.md R32, 30_encoding.md R100). -/
inductive FaultCause where
  | noFault | consecutiveTickFaults | velocityBound | setpointRange
deriving DecidableEq, Repr

/-- The receive-parser state (10_state.md R36, 30_encoding.md R101). -/
inductive RxState where
  | idle | hunt | id | lenLo | lenHi | instr | params | crcLo | crcHi | done
deriving DecidableEq, Repr

/-- The receive-failure cause (10_state.md R37, 30_encoding.md R102). -/
inductive RxCause where
  | none | idMismatch | badLength | instrMismatch | badStuffing | crcMismatch | timeout | paramOverflow
deriving DecidableEq, Repr

/-- Unit HTC (10_state.md R22, R23). -/
structure Htc where
  /-- `seeded`: a previous valid reading exists. -/
  seeded : Bool
  /-- `prev`: the previous valid reading. -/
  prev : HallReading
  /-- `event`: the MotionEvent of the last performed `HALL`. -/
  event : MotionEvent
  /-- `event_valid`: that `HALL` emitted an event. -/
  eventValid : Bool
deriving DecidableEq, Repr

/-- Unit VWE (10_state.md R24 to R29). -/
structure Vwe where
  /-- `cnt` (`int8`), the per-tick count, −128 the sentinel. -/
  cnt : Byte
  /-- `buf`, the window RAM, slots of `int8`. -/
  buf : Memory
  /-- `vsum` (`int32`), the running sum. -/
  vsum : Word
  /-- `cur`, the write cursor. -/
  cur : Nat
  /-- `err`, the error latch. -/
  err : ErrLevel
  /-- `vel_out` (`int32`). -/
  velOut : Word
  /-- `soft_err_cnt` (`uint32`, saturating). -/
  softErrCnt : Word
  /-- `ticks` (`uint32`, wrapping). -/
  ticks : Word
deriving DecidableEq, Repr

/-- Unit PID (10_state.md R30, R31). -/
structure Pid where
  /-- `setpoint` (`int32`). -/
  setpoint : Word
  /-- `integral` (`int32`). -/
  integral : Word
  /-- `last_error` (`int64`). -/
  lastError : DWord
  /-- `pid_raw` (`int64`). -/
  pidRaw : DWord
  /-- `pid_out` (`int32`). -/
  pidOut : Word
deriving DecidableEq, Repr

/-- The fault latch and the operation result (10_state.md R32, R33). -/
structure Status where
  /-- `fault`: Operational (false) or Faulted (true). -/
  fault : Bool
  /-- `fault_cause`. -/
  cause : FaultCause
  /-- `op_ok`: the last operation was performed, not refused. -/
  opOk : Bool
deriving DecidableEq, Repr

/-- Unit SPC, transmit half (10_state.md R34, R35). -/
structure Tx where
  /-- `P[0..7]`, the parameter staging file. -/
  p : Vector Byte 8
  /-- `PN`, how many parameters are staged. -/
  pn : Fin 9
  /-- `tx_buf[0..19]`. -/
  buf : Memory
  /-- `tx_len`. -/
  len : Nat
  /-- `tx_valid`. -/
  valid : Bool
deriving DecidableEq, Repr

/-- Unit SPC, receive half (10_state.md R36, R37). -/
structure Rx where
  /-- `rx_state`. -/
  state : RxState
  /-- `rx_expect`, the id the response must carry. -/
  expect : Byte
  /-- `rx_hdr`, how much of `FF FF FD 00` the received bytes match. -/
  hdr : Fin 4
  /-- `rx_id`. -/
  id : Byte
  /-- `rx_len`. -/
  len : Half
  /-- `rx_instr`. -/
  instr : Byte
  /-- `rx_rem`, stuffed parameter bytes still to come. -/
  rem : Fin 11
  /-- `rx_win`, how much of `FF FF FD` the stored parameters match. -/
  win : Fin 4
  /-- `rx_crc`, the running CRC. -/
  crc : Half
  /-- `rx_crc_lo`, the first received CRC byte. -/
  crcLo : Byte
  /-- `R[0..7]`, the received-parameter file. -/
  r : Vector Byte 8
  /-- `RN`, how many parameters are stored. -/
  rn : Fin 9
  /-- `rx_done`. -/
  done : Bool
  /-- `rx_ok`. -/
  ok : Bool
  /-- `rx_cause`. -/
  cause : RxCause
deriving DecidableEq, Repr

/-- One thing the environment does to the block. DESIGN CHOICE (log 3, log 14). -/
inductive Input where
  /-- It presents an operation or a packet. -/
  | request (r : Request)
  /-- It asserts the external reset input (70_reset_and_hazards.md R310). -/
  | externalReset
deriving DecidableEq, Repr

/-- The state: the configuration (the model's argument, log 1), the inputs not yet accepted, oldest first (log 3), and
the registers and memories of the block (10_state.md R20). -/
structure State where
  cfg : Config
  port : List Input
  htc : Htc
  vwe : Vwe
  pid : Pid
  status : Status
  tx : Tx
  rx : Rx
deriving DecidableEq, Repr

/-- Reset values of unit HTC (10_state.md R44). -/
def Htc.reset : Htc where
  seeded := false
  prev := 0
  event := .noTransition
  eventValid := false

/-- Reset values of unit VWE (10_state.md R44). -/
def Vwe.reset : Vwe where
  cnt := 0
  buf := []
  vsum := 0
  cur := 0
  err := .none
  velOut := 0
  softErrCnt := 0
  ticks := 0

/-- Reset values of unit PID (10_state.md R44). -/
def Pid.reset : Pid where
  setpoint := 0
  integral := 0
  lastError := 0
  pidRaw := 0
  pidOut := 0

/-- Reset values of the fault latch and `op_ok` (10_state.md R44). -/
def Status.reset : Status where
  fault := false
  cause := .noFault
  opOk := true

/-- Reset values of the transmit half (10_state.md R44). -/
def Tx.reset : Tx where
  p := Vector.replicate 8 0
  pn := 0
  buf := []
  len := 0
  valid := false

/-- Reset values of the receive half (10_state.md R44). -/
def Rx.reset : Rx where
  state := .idle
  expect := 0
  hdr := 0
  id := 0
  len := 0
  instr := 0
  rem := 0
  win := 0
  crc := 0
  crcLo := 0
  r := Vector.replicate 8 0
  rn := 0
  done := false
  ok := false
  cause := .none

/-- The block right after power-on under a configuration (10_state.md R44, 70_reset_and_hazards.md R311), with
nothing presented yet. -/
def State.resetWith (cfg : Config) : State where
  cfg := cfg
  port := []
  htc := .reset
  vwe := .reset
  pid := .reset
  status := .reset
  tx := .reset
  rx := .reset

/-- The machine right after reset (10_state.md R44), in the configuration of the hardware. -/
def State.reset : State := State.resetWith Config.hardware

/-- Where a step stops because a rule's pseudocode names no value there. Each is safe: no run from reset reaches
such a state (10_state.md R45), and the block is not said to do anything in it. DESIGN CHOICE (log 11). -/
inductive Fault where
  /-- Raised by `TICK` and `CTICK`: the cursor is at or beyond W, where the window RAM has no slot
  (20_memory.md R60, R61). Safe. -/
  | noWindowSlot (slot : Nat)
  /-- Raised by `HALL`: seeded with a previous reading 0 or 7, for which the Hall ROM has no entry
  (20_memory.md R62). Safe. -/
  | noHallEntry (prev : HallReading)
  /-- Raised by `TICK` and `CTICK`: `err` is Hard while `fault` is 0, which R153 says its lines never meet. Safe. -/
  | hardUnlatched
  /-- Raised by `RXBYTE` (and so by `PKT.STATUS`): in PARAMS with `rx_rem` 0, which has no predecessor
  (43_packet_framer.md R222 line 1). Safe. -/
  | noParamsLeft
deriving DecidableEq, Repr

/-- Where the model has no meaning to give. No step raises it: every instruction has its meaning, and bytes that are
no packet instruction are received bytes (log 6). -/
inductive Refusal where
  /-- An instruction without a meaning. No arm of exec raises it. Safe. -/
  | notModelled (mnemonic : String)
deriving DecidableEq, Repr

/-- What a step answers. -/
abbrev Result := Host.Outcome State Fault Refusal

end Sys2Proof.Machine
end

