-- ==== Sys2Proof/Machine/Ops.lean ====
section
/-! DEFINITION. The named operations the meanings share: performing and refusing an operation (spec/30_encoding.md
R96), the gate of the Faulted state and fault entry (spec/60_exceptions.md R283, R285), reset, the only way back
(R287), the Hall ROM (spec/20_memory.md R62), the window RAM (R61), and taking an input from the port. -/

namespace Sys2Proof.Machine

/-- The parameters of the state's configuration. -/
abbrev State.par (s : State) : Params := s.cfg.val

/-- `op_ok <- 1`: the operation is performed (30_encoding.md R96). -/
def State.perform (s : State) : State := { s with status := { s.status with opOk := true } }

/-- Refuse the operation: `op_ok <- 0` and nothing else changes (30_encoding.md R96). -/
def State.refuse (s : State) : State := { s with status := { s.status with opOk := false } }

/-- The gate of the Faulted state: while `fault = 1` the operation is refused (60_exceptions.md R285). -/
def gated (s : State) (k : State → Result) : Result :=
  if s.status.fault then .next s.refuse else k s

/-- Fault entry, `raise Fault(cause)` (60_exceptions.md R283). -/
def State.enterFault (s : State) (cause : FaultCause) : State :=
  { s with
    status := { s.status with fault := true, cause := cause }
    pid := { s.pid with pidOut := 0, pidRaw := 0 } }

/-- Leaving the Faulted state: every register and memory takes its reset value (60_exceptions.md R287,
44_system_ops.md R261). The configuration is no state of the block (70_reset_and_hazards.md R311), and what the
environment has presented is not the block's either. -/
def State.restoreReset (s : State) : State := { State.resetWith s.cfg with port := s.port }

/-- One operation after another, when the first completes. -/
def andThen (r : Result) (k : State → Result) : Result :=
  match r with
  | .next s => k s
  | .fault f => .fault f
  | .refused f => .refused f

/-- Take the oldest input from the port. -/
def State.nextInput (s : State) : Option (Input × State) :=
  match s.port with
  | [] => none
  | x :: rest => some (x, { s with port := rest })

/-! ### The Hall successor ROM (20_memory.md R62) -/

/-- `HALL_FWD[p]` (40_hall_decoder.md R131). -/
def hallFwd (c : Params) (p : HallReading) : HallReading := c.succ p

/-- `HALL_BWD[p]`, the inverse of `HALL_FWD` (00_scope.md R11): the valid reading whose forward successor is `p`. -/
def hallBwd (c : Params) (p : HallReading) : HallReading :=
  (([1, 2, 3, 4, 5, 6] : List HallReading).find? (fun r => hallFwd c r == p)).getD 0

/-! ### The window RAM (20_memory.md R61) -/

/-- The value of a slot, an `int8` sign-extended (20_memory.md R80). -/
def slotValue (buf : Memory) (i : Nat) : Int := countValue (buf.read i)

/-- The sum of the slots 0 to `n - 1`. -/
def windowSum (buf : Memory) : Nat → Int
  | 0 => 0
  | n + 1 => windowSum buf n + slotValue buf n

/-- The cursor advanced by one, wrapping at the window length (20_memory.md R61). -/
def nextCursor (w cur : Nat) : Nat := (cur + 1) % w

end Sys2Proof.Machine
end

