-- ==== Sys2Proof/Machine/Flags.lean ====
section
/-! DEFINITION. The status flags: the block has no arithmetic condition codes (spec/10_state.md R38). Here are the
code values of the small registers (spec/30_encoding.md R98 to R102), the update of the error counters, and the
read-only output ports (spec/10_state.md R39). -/

namespace Sys2Proof.Machine

/-- MotionEvent code (30_encoding.md R98). -/
def MotionEvent.code : MotionEvent → BitVec 2
  | .noTransition => 0
  | .forward => 1
  | .backward => 2
  | .error => 3

/-- Error-latch code (30_encoding.md R99). -/
def ErrLevel.code : ErrLevel → BitVec 2
  | .none => 0
  | .soft => 1
  | .hard => 2

/-- Fault-cause code (30_encoding.md R100). -/
def FaultCause.code : FaultCause → BitVec 2
  | .noFault => 0
  | .consecutiveTickFaults => 1
  | .velocityBound => 2
  | .setpointRange => 3

/-- Receive-parser state code (30_encoding.md R101). -/
def RxState.code : RxState → BitVec 4
  | .idle => 0
  | .hunt => 1
  | .id => 2
  | .lenLo => 3
  | .lenHi => 4
  | .instr => 5
  | .params => 6
  | .crcLo => 7
  | .crcHi => 8
  | .done => 9

/-- Receive-failure code (30_encoding.md R102). -/
def RxCause.code : RxCause → BitVec 3
  | .none => 0
  | .idMismatch => 1
  | .badLength => 2
  | .instrMismatch => 3
  | .badStuffing => 4
  | .crcMismatch => 5
  | .timeout => 6
  | .paramOverflow => 7

/-- `min(soft_err_cnt + 1, 2^32 - 1)` (41_velocity_window.md R153 line 4). -/
def saturatingSucc (n : Word) : Word := BitVec.ofNat 32 (min (n.toNat + 1) (2 ^ 32 - 1))

/-- The tick counter's increment, wrapping modulo 2^32 (41_velocity_window.md R153 line 2). -/
def wrappingSucc (n : Word) : Word := n + 1

/-- The read-only output ports (10_state.md R39), in their port encodings. -/
structure Outputs where
  event : BitVec 2
  eventValid : Bool
  err : BitVec 2
  velOut : Word
  softErrCnt : Word
  ticks : Word
  pidRaw : DWord
  pidOut : Word
  fault : Bool
  faultCause : BitVec 2
  opOk : Bool
  txBuf : List Byte
  txLen : Nat
  txValid : Bool
  r : List Byte
  rn : Nat
  rxDone : Bool
  rxOk : Bool
  rxCause : BitVec 3
  rxState : BitVec 4
deriving DecidableEq, Repr

/-- What the environment reads: reading changes nothing (20_memory.md R70). -/
def State.outputs (s : State) : Outputs where
  event := s.htc.event.code
  eventValid := s.htc.eventValid
  err := s.vwe.err.code
  velOut := s.vwe.velOut
  softErrCnt := s.vwe.softErrCnt
  ticks := s.vwe.ticks
  pidRaw := s.pid.pidRaw
  pidOut := s.pid.pidOut
  fault := s.status.fault
  faultCause := s.status.cause.code
  opOk := s.status.opOk
  txBuf := s.tx.buf.readBytes txSize
  txLen := s.tx.len
  txValid := s.tx.valid
  r := s.rx.r.toList
  rn := s.rx.rn.val
  rxDone := s.rx.done
  rxOk := s.rx.ok
  rxCause := s.rx.cause.code
  rxState := s.rx.state.code

/-- The bytes the environment carries to the serial line, lowest offset first (43_packet_framer.md R227 step 3). -/
def State.txPacket (s : State) : List Byte := s.tx.buf.readBytes s.tx.len

end Sys2Proof.Machine
end

