-- ==== Sys2Proof/Machine/PidController.lean ====
section
/-! DEFINITION. Unit PID, the fixed-point PID controller with saturation: the operations `SETPT` and `PIDSTEP`
(spec/42_pid.md R181 to R189). -/

namespace Sys2Proof.Machine

/-- Lines 2 to 4 of `SETPT` (R181), for `fault = 0`: the range check of R183, and nothing but the target is
stored (R182). -/
def setpointUpdate (v : Word) (s : State) : State :=
  if s.par.setpointMax < (wordValue v).natAbs then s.perform.enterFault .setpointRange
  else { s.perform with pid := { s.pid with setpoint := v } }

/-- `error = setpoint - current` (R184 line 3). -/
def pidError (s : State) (current : Int) : Int := wordValue s.pid.setpoint - current

/-- The new integral, clamped (R184 line 4, R187). -/
def pidIntegral (s : State) (current : Int) : Int :=
  clamp (wordValue s.pid.integral + pidError s current) (-s.par.iBound) s.par.iBound

/-- `derivative = error - last_error` (R184 line 5, R188). -/
def pidDerivative (s : State) (current : Int) : Int := pidError s current - dwordValue s.pid.lastError

/-- The wide four-term sum (R184 line 6, R185). -/
def pidAcc (s : State) (current : Int) : Int :=
  s.par.kp * pidError s current + s.par.ki * pidIntegral s current
    + s.par.kd * pidDerivative s current + s.par.kf * wordValue s.pid.setpoint

/-- Lines 2 to 8 of `PIDSTEP` (R184), for `fault = 0`. -/
def pidUpdate (s : State) (current : Int) : State :=
  let raw := toDWord (asr (pidAcc s current) s.par.scaleShift)
  { s.perform with pid := { s.pid with
      integral := toWord (pidIntegral s current)
      lastError := toDWord (pidError s current)
      pidRaw := raw
      pidOut := toWord (clamp (dwordValue raw) (-s.par.throttleMax) s.par.throttleMax) } }

/-- `SETPT v` (R181). -/
def execSetpt (v : Word) (s : State) : Result := gated s (fun t => .next (setpointUpdate v t))

/-- `PIDSTEP current` (R184). -/
def execPidstep (current : Word) (s : State) : Result :=
  gated s (fun t => .next (pidUpdate t (wordValue current)))

end Sys2Proof.Machine
end

