-- ==== Sys2Proof/Machine/Velocity.lean ====
section
/-! DEFINITION. Unit VWE, the windowed velocity accumulator: the per-event half (spec/41_velocity_window.md R151,
R152) and the operation `TICK` (R153 to R158). -/

namespace Sys2Proof.Machine

/-- `accumulate(e)` on the per-tick count (R151); the sentinel is sticky (R152). -/
def accumulate (cnt : Byte) (e : MotionEvent) : Byte :=
  if cnt = countSentinel then cnt
  else
    match e with
    | .forward => if countValue cnt = countMax then countSentinel else cnt + 1
    | .backward => if countValue cnt = -countMax then countSentinel else cnt - 1
    | .noTransition => cnt
    | .error => countSentinel

/-- The sum scaled to transitions per second, `trunc_div(vsum * TICK_HZ, W)` (R158). -/
def scaledVelocity (p : Params) (vsum : Word) : Word :=
  toWord (truncDiv (wordValue vsum * p.tickHz) p.windowLength)

/-- The running sum with the slot's old value out and the count in (R153 line 7). -/
def slideSum (vsum : Word) (old cnt : Byte) : Word :=
  toWord (wordValue vsum - countValue old + countValue cnt)

/-- The bound check fails: `abs(vsum) > W * MAX_PER_TICK_COUNT` (R153 line 8, R156). -/
def beyondBound (p : Params) (vsum : Word) : Bool :=
  decide (p.windowLength * p.maxPerTickCount < (wordValue vsum).natAbs)

/-- A tick whose status is Hard: lines 9 to 11 of R153 with `err <- Hard`. -/
def hardTick (s : State) (cause : FaultCause) : State :=
  State.enterFault { s with vwe := { s.vwe with err := .hard, cnt := 0, velOut := 0 } } cause

/-- A faulty tick (R154): lines 4 and 9 to 11 of R153. The window is untouched. -/
def faultyTick (s : State) : State :=
  if s.vwe.err = .none then
    { s with vwe := { s.vwe with
        err := .soft
        softErrCnt := saturatingSucc s.vwe.softErrCnt
        cnt := 0
        velOut := scaledVelocity s.par s.vwe.vsum } }
  else hardTick s .consecutiveTickFaults

/-- The window update of a normal tick (R153 lines 6 and 7, R155). -/
def slideWindow (s : State) : State :=
  { s with vwe := { s.vwe with
      err := .none
      vsum := slideSum s.vwe.vsum (s.vwe.buf.read s.vwe.cur) s.vwe.cnt
      buf := s.vwe.buf.write s.vwe.cur s.vwe.cnt
      cur := nextCursor s.par.windowLength s.vwe.cur } }

/-- A normal tick (R155): lines 6 to 11 of R153. -/
def normalTick (s : State) : State :=
  let t := slideWindow s
  if beyondBound t.par t.vwe.vsum then hardTick t .velocityBound
  else { t with vwe := { t.vwe with cnt := 0, velOut := scaledVelocity t.par t.vwe.vsum } }

/-- Lines 2 to 11 of `TICK` (R153), for `fault = 0`. -/
def tickUpdate (s : State) : Result :=
  if s.vwe.err = .hard then .fault .hardUnlatched
  else
    let t : State := { s.perform with vwe := { s.vwe with ticks := wrappingSucc s.vwe.ticks } }
    if t.vwe.cnt = countSentinel then .next (faultyTick t)
    else if t.vwe.cur < t.par.windowLength then .next (normalTick t)
    else .fault (.noWindowSlot t.vwe.cur)

/-- `TICK` (R153). -/
def execTick (s : State) : Result := gated s tickUpdate

end Sys2Proof.Machine
end

