-- ==== Sys2Proof/Machine/ControlTick.lean ====
section
/-! DEFINITION. The operation `CTICK`, the whole per-tick control sequence (spec/41_velocity_window.md R161). -/

namespace Sys2Proof.Machine

/-- Line 3 of R161: the PID step on the tick's `vel_out`, unless the tick faulted. -/
def controlAfterTick (t : State) : State :=
  if t.status.fault then t else pidUpdate t (wordValue t.vwe.velOut)

/-- `CTICK` (R161). -/
def execCtick (s : State) : Result :=
  gated s (fun t => andThen (tickUpdate t) (fun u => .next (controlAfterTick u)))

end Sys2Proof.Machine
end

