-- ==== Sys2Proof/Machine/Framer.lean ====
section
/-! DEFINITION. Unit SPC, the packet framer: the operations `PPUSH`, `PCLR`, `BUILD`, `RXARM`, `RXBYTE` and `RXTMO`
(spec/43_packet_framer.md R208 to R226). -/

namespace Sys2Proof.Machine

/-! ### Transmit half -/

/-- The staged parameters `P[0] … P[PN-1]` (20_memory.md R65). -/
def Tx.staged (t : Tx) : List Byte := t.p.toList.take t.pn.val

/-- Lines 2 and 3 of `PPUSH` (R208), for `fault = 0`. -/
def stageByte (b : Byte) (s : State) : State :=
  if h : s.tx.pn.val < 8 then
    { s.perform with tx := { s.tx with
        p := s.tx.p.set s.tx.pn.val b
        pn := ⟨s.tx.pn.val + 1, by omega⟩ } }
  else s.refuse

/-- Line 2 of `PCLR` (R209), for `fault = 0`. -/
def clearStaging (s : State) : State := { s.perform with tx := { s.tx with pn := 0 } }

/-- Lines 2 to 9 of `BUILD` (R210), for `fault = 0`. -/
def buildPacket (id instr : Byte) (s : State) : State :=
  let pkt := framePacket s.par id instr s.tx.staged
  { s.perform with tx := { s.tx with
      len := pkt.length
      buf := s.tx.buf.writeBytes 0 pkt
      valid := true
      pn := 0 } }

/-- `PPUSH b` (R208). -/
def execPpush (b : Byte) (s : State) : Result := gated s (fun t => .next (stageByte b t))

/-- `PCLR` (R209). -/
def execPclr (s : State) : Result := gated s (fun t => .next (clearStaging t))

/-- `BUILD id, instr` (R210). -/
def execBuild (id instr : Byte) (s : State) : Result := gated s (fun t => .next (buildPacket id instr t))

/-! ### Receive half -/

/-- `fail(cause)` (R216). -/
def Rx.fail (rx : Rx) (cause : RxCause) : Rx :=
  { rx with state := .done, done := true, ok := false, cause := cause }

/-- The running CRC with one more byte. -/
def Rx.addCrc (p : Params) (rx : Rx) (b : Byte) : Rx := { rx with crc := crcByte p.crcPoly rx.crc b }

/-- Lines 3 to 6 of `RXARM` (R215). The bytes of `R` are not cleared. -/
def Rx.arm (p : Params) (rx : Rx) (id : Byte) : Rx where
  state := .hunt
  expect := id
  hdr := 0
  id := 0
  len := 0
  instr := 0
  rem := 0
  win := 0
  crc := p.crcInit
  crcLo := 0
  r := rx.r
  rn := 0
  done := false
  ok := false
  cause := .none

/-- Step HUNT (R217). -/
def Rx.huntStep (p : Params) (rx : Rx) (b : Byte) : Rx :=
  match rx.hdr with
  | 0 => { rx with hdr := if b = 0xFF then 1 else 0 }
  | 1 => { rx with hdr := if b = 0xFF then 2 else 0 }
  | 2 => { rx with hdr := if b = 0xFF then 2 else if b = 0xFD then 3 else 0 }
  | 3 =>
    if b = 0x00 then { rx with hdr := 0, crc := crcHdr p, state := .id }
    else { rx with hdr := if b = 0xFF then 1 else 0 }

/-- Step ID (R218). -/
def Rx.idStep (p : Params) (rx : Rx) (b : Byte) : Rx :=
  let rx := { rx.addCrc p b with id := b }
  if b ≠ rx.expect then rx.fail .idMismatch else { rx with state := .lenLo }

/-- Step LEN_LO (R219). -/
def Rx.lenLoStep (p : Params) (rx : Rx) (b : Byte) : Rx :=
  { rx.addCrc p b with len := b.setWidth 16, state := .lenHi }

/-- Step LEN_HI (R220): `rx_len + 256 × b`, where LEN_LO has cleared the high byte. -/
def Rx.lenHiStep (p : Params) (rx : Rx) (b : Byte) : Rx :=
  let len := rx.len + (b ++ 0x00#8)
  let rx := { rx.addCrc p b with len := len }
  if h : 3 ≤ len.toNat ∧ len.toNat ≤ 13 then
    { rx with rem := ⟨len.toNat - 3, by omega⟩, state := .instr }
  else rx.fail .badLength

/-- Step INSTR (R221). -/
def Rx.instrStep (p : Params) (rx : Rx) (b : Byte) : Rx :=
  let rx := { rx.addCrc p b with instr := b }
  if b ≠ statusInstr then rx.fail .instrMismatch
  else if rx.rem = 0 then { rx with state := .crcLo }
  else { rx with win := 0, state := .params }

/-- Line 4 of step PARAMS (R222). -/
def Rx.endParam (rx : Rx) : Rx :=
  if rx.rem = 0 then
    if rx.win = 3 then rx.fail .badStuffing else { rx with state := .crcLo }
  else rx

/-- Lines 2 to 4 of step PARAMS (R222). -/
def Rx.takeParam (rx : Rx) (b : Byte) : Rx :=
  if rx.win = 3 then
    if b = 0xFD then Rx.endParam { rx with win := 0 } else rx.fail .badStuffing
  else if h : rx.rn.val < 8 then
    Rx.endParam { rx with
      r := rx.r.set rx.rn.val b
      rn := ⟨rx.rn.val + 1, by omega⟩
      win := Machine.win rx.win b }
  else rx.fail .paramOverflow

/-- Step PARAMS (R222), for `rx_rem ≠ 0`. -/
def Rx.paramsStep (p : Params) (rx : Rx) (b : Byte) : Rx :=
  Rx.takeParam { rx.addCrc p b with rem := ⟨rx.rem.val - 1, by omega⟩ } b

/-- Step CRC_LO (R223). -/
def Rx.crcLoStep (rx : Rx) (b : Byte) : Rx := { rx with crcLo := b, state := .crcHi }

/-- Step CRC_HI (R224). -/
def Rx.crcHiStep (p : Params) (rx : Rx) (b : Byte) : Rx :=
  if ofBytes rx.crcLo b = rx.crc ^^^ p.crcXorOut then
    { rx with state := .done, done := true, ok := true, cause := .none }
  else rx.fail .crcMismatch

/-- Lines 2 to 4 of `RXBYTE` (R216), for `fault = 0`. -/
def feedByte (b : Byte) (s : State) : Result :=
  match s.rx.state with
  | .idle => .next s.refuse
  | .hunt => .next { s.perform with rx := s.rx.huntStep s.par b }
  | .id => .next { s.perform with rx := s.rx.idStep s.par b }
  | .lenLo => .next { s.perform with rx := s.rx.lenLoStep s.par b }
  | .lenHi => .next { s.perform with rx := s.rx.lenHiStep s.par b }
  | .instr => .next { s.perform with rx := s.rx.instrStep s.par b }
  | .params =>
    if s.rx.rem = 0 then .fault .noParamsLeft
    else .next { s.perform with rx := s.rx.paramsStep s.par b }
  | .crcLo => .next { s.perform with rx := s.rx.crcLoStep b }
  | .crcHi => .next { s.perform with rx := s.rx.crcHiStep s.par b }
  | .done => .next s.refuse

/-- Lines 2 to 6 of `RXARM` (R215), for `fault = 0`. -/
def armReceiver (id : Byte) (s : State) : State := { s.perform with rx := s.rx.arm s.par id }

/-- Lines 2 and 3 of `RXTMO` (R225), for `fault = 0`. -/
def receiveTimeout (s : State) : State :=
  if s.rx.state = .idle ∨ s.rx.state = .done then s.refuse
  else { s.perform with rx := s.rx.fail .timeout }

/-- `RXARM id` (R215). -/
def execRxarm (id : Byte) (s : State) : Result := gated s (fun t => .next (armReceiver id t))

/-- `RXBYTE b` (R216). -/
def execRxbyte (b : Byte) (s : State) : Result := gated s (feedByte b)

/-- `RXTMO` (R225). -/
def execRxtmo (s : State) : Result := gated s (fun t => .next (receiveTimeout t))

end Sys2Proof.Machine
end

