-- ==== Sys2Proof/Machine/HallDecoder.lean ====
section
/-! DEFINITION. Unit HTC, the Hall transition decoder: `classify` and the operation `HALL`
(spec/40_hall_decoder.md R132 to R137). -/

namespace Sys2Proof.Machine

/-- `classify(p, r)` (R132): the first matching line decides. -/
def classify (c : Params) (p r : HallReading) : MotionEvent :=
  if validReading r = false then .error
  else if r = p then .noTransition
  else if r = hallBwd c p then .backward
  else if r = hallFwd c p then .forward
  else .error

/-- An emitted event: `event <- e ; event_valid <- 1 ; accumulate(e)` (R133 lines 8, 9, 12, 14). -/
def State.emitEvent (s : State) (e : MotionEvent) : State :=
  { s with
    htc := { s.htc with event := e, eventValid := true }
    vwe := { s.vwe with cnt := accumulate s.vwe.cnt e } }

/-- The seeding call (R133 lines 5 and 6, R134). -/
def State.seed (s : State) (r : HallReading) : State :=
  { s with htc := { seeded := true, prev := r, event := .noTransition, eventValid := false } }

/-- Line 13 of R133: a valid reading becomes the previous reading (R136). -/
def State.follow (s : State) (r : HallReading) : State :=
  { s with htc := { s.htc with prev := if validReading r then r else s.htc.prev } }

/-- Lines 2 to 14 of `HALL` (R133), for `fault = 0`. -/
def hallUpdate (r : HallReading) (s : State) : Result :=
  if s.htc.seeded = false then
    .next (if validReading r then s.perform.seed r else s.perform.emitEvent .error)
  else if validReading r = true ∧ validReading s.htc.prev = false then .fault (.noHallEntry s.htc.prev)
  else .next ((s.perform.emitEvent (classify s.par s.htc.prev r)).follow r)

/-- `HALL r` (R133). -/
def execHall (r : HallReading) (s : State) : Result := gated s (hallUpdate r)

end Sys2Proof.Machine
end

