-- ==== Sys2Proof/Machine/Packets.lean ====
section
/-! DEFINITION. The packet instructions (spec/43_packet_framer.md R229 to R233). A packet the block sends is the
sequence `SEND` of spec/30_encoding.md R113 and spec/43_packet_framer.md R227; a `PKT.STATUS` packet is its bytes fed
to `RXBYTE` (R216). The framer treats the parameters as opaque bytes (spec/30_encoding.md R110). -/

namespace Sys2Proof.Machine

/-- Stage parameters one after another (`PPUSH` of each). -/
def stageBytes (params : List Byte) (s : State) : State :=
  match params with
  | [] => s
  | b :: bs => stageBytes bs (stageByte b s)

/-- `SEND id, instr, params` (30_encoding.md R113): clear the staging file, stage the parameters, build, and for a
unicast id arm the receiver for the response (43_packet_framer.md R227, R228). For `fault = 0`. -/
def sendPacket (id instr : Byte) (params : List Byte) (s : State) : State :=
  let built := buildPacket id instr (stageBytes params (clearStaging s))
  if id = broadcastId then built else armReceiver id built

/-- Received bytes, one `RXBYTE` each (`RXFEED` of 30_encoding.md R113). For `fault = 0`. -/
def feedBytes (bytes : List Byte) (s : State) : Result :=
  match bytes with
  | [] => .next s
  | b :: bs => andThen (feedByte b s) (feedBytes bs)

/-- Bytes that form no packet instruction, as they arrive on the serial line: one `RXBYTE` each (30_encoding.md R107,
R113). The receive half skips what continues no header (43_packet_framer.md R217) and rejects a wrong id, length,
instruction byte or stuffing (R218 to R222). -/
def receiveBytes (bytes : List Byte) (s : State) : Result :=
  match bytes with
  | [] => .next s
  | b :: bs => andThen (execRxbyte b s) (receiveBytes bs)

/-- `PKT.WRITE` (43_packet_framer.md R229). -/
def execPktWrite (id : Byte) (params : List Byte) (s : State) : Result :=
  gated s (fun t => .next (sendPacket id 0x03 params t))

/-- `PKT.REG_WRITE` (43_packet_framer.md R230). -/
def execPktRegWrite (id : Byte) (params : List Byte) (s : State) : Result :=
  gated s (fun t => .next (sendPacket id 0x04 params t))

/-- `PKT.ACTION` (43_packet_framer.md R231). -/
def execPktAction (id : Byte) (params : List Byte) (s : State) : Result :=
  gated s (fun t => .next (sendPacket id 0x05 params t))

/-- `PKT.FACTORY_RESET` (43_packet_framer.md R232). -/
def execPktFactoryReset (id : Byte) (params : List Byte) (s : State) : Result :=
  gated s (fun t => .next (sendPacket id 0x06 params t))

/-- `PKT.STATUS` (43_packet_framer.md R233): the receive half takes the packet's bytes as they arrive. -/
def execPktStatus (id : Byte) (params : List Byte) (crc : Half) (s : State) : Result :=
  gated s (feedBytes (framePre id statusInstr params ++ crcField crc))

end Sys2Proof.Machine
end

