-- ==== Sys2Proof/Machine/System.lean ====
section
/-! DEFINITION. The system operations: `NOP`, `RESET` and the reserved codes (spec/44_system_ops.md R260 to R262). -/

namespace Sys2Proof.Machine

/-- `NOP` (R260): performed in the Operational and in the Faulted state alike. -/
def execNop (s : State) : Result := .next s.perform

/-- `RESET` (R261): performed in every state. -/
def execReset (s : State) : Result := .next s.restoreReset

/-- The reserved operation code 0xC (R262): refused in every state. -/
def execReservedC (s : State) : Result := .next s.refuse

/-- The reserved operation code 0xD (R262): refused in every state. -/
def execReservedD (s : State) : Result := .next s.refuse

/-- The reserved operation code 0xE (R262): refused in every state. -/
def execReservedE (s : State) : Result := .next s.refuse

end Sys2Proof.Machine
end

