-- ==== Sys2Proof/Machine/Dispatch.lean ====
section
/-! DEFINITION. The meaning of every instruction, one arm per constructor. -/

namespace Sys2Proof.Machine

def exec (i : Instr) (s : State) : Host.Outcome State Fault Refusal :=
  match i with
  | .nop => Sys2Proof.Machine.execNop s
  | .hall r => Sys2Proof.Machine.execHall r s
  | .tick => Sys2Proof.Machine.execTick s
  | .setpt v => Sys2Proof.Machine.execSetpt v s
  | .pidstep current => Sys2Proof.Machine.execPidstep current s
  | .ctick => Sys2Proof.Machine.execCtick s
  | .ppush b => Sys2Proof.Machine.execPpush b s
  | .pclr => Sys2Proof.Machine.execPclr s
  | .build id instr => Sys2Proof.Machine.execBuild id instr s
  | .rxarm id => Sys2Proof.Machine.execRxarm id s
  | .rxbyte b => Sys2Proof.Machine.execRxbyte b s
  | .rxtmo => Sys2Proof.Machine.execRxtmo s
  | .reservedC => Sys2Proof.Machine.execReservedC s
  | .reservedD => Sys2Proof.Machine.execReservedD s
  | .reservedE => Sys2Proof.Machine.execReservedE s
  | .reset => Sys2Proof.Machine.execReset s
  | .pktWrite id params => Sys2Proof.Machine.execPktWrite id params s
  | .pktRegWrite id params => Sys2Proof.Machine.execPktRegWrite id params s
  | .pktAction id params => Sys2Proof.Machine.execPktAction id params s
  | .pktFactoryReset id params => Sys2Proof.Machine.execPktFactoryReset id params s
  | .pktStatus id params crc => Sys2Proof.Machine.execPktStatus id params crc s

end Sys2Proof.Machine
end

