-- ==== Sys2Proof/Machine/Step.lean ====
section
/-! DEFINITION. One step: the block accepts the oldest input at its port and performs it whole (spec/00_scope.md R9,
spec/20_memory.md R74). -/

namespace Sys2Proof.Machine

/-- One step. With nothing presented the block does nothing: every output holds the result of the last operation
(10_state.md R20). DESIGN CHOICE (log 4). A request that decodes to no instruction is bytes received from the serial
line. DESIGN CHOICE (log 6). -/
def step (s : State) : Host.Outcome State Fault Refusal :=
  match s.nextInput with
  | none => .next s
  | some (.externalReset, t) => .next t.restoreReset
  | some (.request r, t) =>
    match decode r with
    | .ok i => exec i t
    | .error _ => receiveBytes r.lineBytes t

/-- The environment presents an opcode-table row's bits before everything still waiting. -/
def State.withFetchWord (s : State) (nbits w : Nat) : State :=
  { s with port := .request (tableRequest nbits w) :: s.port }

end Sys2Proof.Machine
end

