-- ==== Sys2Proof/Machine/Pseudo.lean ====
section
/-! DEFINITION. What the environment does with the block, as functions of the model: presenting operations at the port,
a sensor event together with a tick (spec/20_memory.md R75), performing a list of operations in order (R74), the
pseudo-operations of spec/30_encoding.md R113, and the control-table addresses of spec/20_memory.md R66. -/

namespace Sys2Proof.Machine

/-- The environment presents operations, after everything still waiting (20_memory.md R74). -/
def State.present (s : State) (ops : List Instr) : State :=
  { s with port := s.port ++ ops.map (fun i => .request (encode i)) }

/-- A sensor event and a tick that coincide: the sensor event stands first (20_memory.md R75,
60_exceptions.md R281). -/
def State.presentTogether (s : State) (r : HallReading) (tickOp : Instr) : State :=
  s.present [.hall r, tickOp]

/-- Operations performed one at a time, in order (20_memory.md R74). -/
def execSeq (ops : List Instr) (s : State) : Result :=
  match ops with
  | [] => .next s
  | i :: is => andThen (exec i s) (execSeq is)

/-- `PARAMS b0, …` (R113). -/
def paramsOps (params : List Byte) : List Instr := .pclr :: params.map .ppush

/-- `RXFEED b0 b1 …` (R113). -/
def rxFeedOps (bytes : List Byte) : List Instr := bytes.map .rxbyte

/-- `SEND id, instr, [b0, …]` (R113): between `BUILD` and `RXARM` the environment transmits the packet, which is no
operation of the block. -/
def sendOps (id instr : Byte) (params : List Byte) : List Instr :=
  paramsOps params ++ [.build id instr] ++ (if id = broadcastId then [] else [.rxarm id])

/-- The parameters of `WRITE` and `REGISTERED WRITE`: the address low byte first, then the data
(30_encoding.md R110). -/
def writeParams (addr : Half) (data : List Byte) : List Byte := lowByte addr :: highByte addr :: data

/-- `WRITE id, addr, d0, …` (R113). -/
def writeOps (id : Byte) (addr : Half) (data : List Byte) : List Instr := sendOps id 0x03 (writeParams addr data)

/-- `REGWRITE id, addr, d0, …` (R113). -/
def regWriteOps (id : Byte) (addr : Half) (data : List Byte) : List Instr :=
  sendOps id 0x04 (writeParams addr data)

/-- `ACTION id` (R113). -/
def actionOps (id : Byte) : List Instr := sendOps id 0x05 []

/-- `WALK +k` from a previous reading (R113). -/
def walkForward (c : Params) (prev : HallReading) : Nat → List Instr
  | 0 => []
  | k + 1 => .hall (hallFwd c prev) :: walkForward c (hallFwd c prev) k

/-- `WALK -k` from a previous reading (R113). -/
def walkBackward (c : Params) (prev : HallReading) : Nat → List Instr
  | 0 => []
  | k + 1 => .hall (hallBwd c prev) :: walkBackward c (hallBwd c prev) k

/-- The control-table address of `ID` (20_memory.md R66). -/
def addrId : Half := 7

/-- The control-table address of `TORQUE_ENABLE` (20_memory.md R66). -/
def addrTorqueEnable : Half := 64

/-- The control-table address of `LED` (20_memory.md R66). -/
def addrLed : Half := 65

/-- The control-table address of `GOAL_POSITION` (20_memory.md R66). -/
def addrGoalPosition : Half := 116

end Sys2Proof.Machine
end

