-- ==== Sys2Proof/Safety.lean ====
section
/-! DEFINITION. What a safe run of the block is: the invariant of every reachable state (spec/10_state.md R45, with the
clauses its proof needs), and the terms the statements use. -/

namespace Sys2Proof.Machine

/-- The window (10_state.md R45 (a), (b), (d)): the sum of the slots, the slots' range, the cursor's range, and the
RAM in canonical form with no slot beyond W. -/
abbrev State.WindowInv (s : State) : Prop :=
  wordValue s.vwe.vsum = windowSum s.vwe.buf s.par.windowLength
    ∧ (∀ i < s.par.windowLength, (slotValue s.vwe.buf i).natAbs ≤ countMax)
    ∧ s.vwe.cur < s.par.windowLength
    ∧ Memory.wf s.vwe.buf
    ∧ ∀ c ∈ s.vwe.buf, c.1 < s.par.windowLength

/-- The decoder (10_state.md R45 (e)). -/
abbrev State.DecoderInv (s : State) : Prop := s.htc.seeded = true → validReading s.htc.prev = true

/-- The controller (10_state.md R45 (f), and 42_pid.md R185's bound on the error for `last_error`). -/
abbrev State.PidInv (s : State) : Prop :=
  (wordValue s.pid.integral).natAbs ≤ s.par.iBound
    ∧ (wordValue s.pid.setpoint).natAbs ≤ s.par.setpointMax
    ∧ (wordValue s.pid.pidOut).natAbs ≤ s.par.throttleMax
    ∧ (dwordValue s.pid.lastError).natAbs ≤ s.par.setpointMax + 2 ^ 31

/-- The latches (10_state.md R45 (g), (i); 93_implementation_defined.md U15). -/
abbrev State.LatchInv (s : State) : Prop :=
  (s.vwe.err = .hard → s.status.fault = true ∧ s.vwe.velOut = 0)
    ∧ (s.status.fault = true → s.pid.pidOut = 0 ∧ s.pid.pidRaw = 0)
    ∧ (s.status.fault = true ↔ s.status.cause ≠ .noFault)
    ∧ (s.status.fault = false → (wordValue s.vwe.vsum).natAbs ≤ s.par.windowLength * s.par.maxPerTickCount)

/-- The framer (10_state.md R45 (h); `PN` and `RN` are at most 8 by their types): the length and the extent of the
transmit buffer, its canonical form, a parameter still to come in state PARAMS, and a length of one byte in LEN_HI
(43_packet_framer.md R219). -/
abbrev State.FramerInv (s : State) : Prop :=
  s.tx.len ≤ txSize
    ∧ Memory.wf s.tx.buf
    ∧ (∀ c ∈ s.tx.buf, c.1 < txSize)
    ∧ (s.rx.state = .params → s.rx.rem ≠ 0)
    ∧ (s.rx.state = .lenHi → s.rx.len.toNat < 256)

/-- The invariant of every reachable state (10_state.md R45). -/
abbrev State.Inv (s : State) : Prop :=
  s.WindowInv ∧ s.DecoderInv ∧ s.PidInv ∧ s.LatchInv ∧ s.FramerInv

/-- The result is a fault of the model: a rule's pseudocode named no value. -/
def Faults (r : Result) : Prop := ∃ f, r = .fault f

/-- The operations of the framer and the packet instructions: unit SPC (30_encoding.md R93, R106). -/
def isFramerOp : Instr → Bool
  | .nop => false
  | .hall _ => false
  | .tick => false
  | .setpt _ => false
  | .pidstep _ => false
  | .ctick => false
  | .ppush _ => true
  | .pclr => true
  | .build _ _ => true
  | .rxarm _ => true
  | .rxbyte _ => true
  | .rxtmo => true
  | .reservedC => false
  | .reservedD => false
  | .reservedE => false
  | .reset => false
  | .pktWrite _ _ => true
  | .pktRegWrite _ _ => true
  | .pktAction _ _ => true
  | .pktFactoryReset _ _ => true
  | .pktStatus _ _ _ => true

/-- The operations of the motor side: units HTC, VWE and PID (30_encoding.md R93). -/
def isMotorOp : Instr → Bool
  | .nop => false
  | .hall _ => true
  | .tick => true
  | .setpt _ => true
  | .pidstep _ => true
  | .ctick => true
  | .ppush _ => false
  | .pclr => false
  | .build _ _ => false
  | .rxarm _ => false
  | .rxbyte _ => false
  | .rxtmo => false
  | .reservedC => false
  | .reservedD => false
  | .reservedE => false
  | .reset => false
  | .pktWrite _ _ => false
  | .pktRegWrite _ _ => false
  | .pktAction _ _ => false
  | .pktFactoryReset _ _ => false
  | .pktStatus _ _ _ => false

/-- One tick after another, each finding one of the given counts (41_velocity_window.md R159). -/
def tickSeq (counts : List Byte) (s : State) : Result :=
  match counts with
  | [] => .next s
  | c :: cs => andThen (execTick { s with vwe := { s.vwe with cnt := c } }) (tickSeq cs)

/-- The sum of a list of counts. -/
def countSum (counts : List Byte) : Int := (counts.map countValue).sum

end Sys2Proof.Machine
end

