-- ==== Sys2Proof/Certificates/Slice0/Obligations.lean ====
section
/-! DEFINITION. The statements for the provers, each a rule of spec/ or an inference from its rules, over every state of
the model in every well-formed configuration (a state carries its configuration). -/

open Sys2Proof
open Sys2Proof.Machine

/-! ### Encoding -/

/-- Every well-formed instruction, command word or packet, is read back from its encoding. -/
def Obligations.DecodeReadsBackEncode : Prop :=
  ∀ i : Instr, i.wellFormed = true → decode (encode i) = .ok i

/-- R94, with the rows of R93 and the operand fields of R92: the top four bits select the operation, and the low
32 bits give its named fields and nothing else. -/
def Obligations.CommandWordSelectsByTopFourBits : Prop :=
  (∀ w : CommandWord, commandWord (opField w) (dataField w) = w)
  ∧ ∀ d : Word,
    decodeWord (commandWord 0x0 d) = .nop
    ∧ decodeWord (commandWord 0x1 d) = .hall (d.extractLsb' 0 3)
    ∧ decodeWord (commandWord 0x2 d) = .tick
    ∧ decodeWord (commandWord 0x3 d) = .setpt d
    ∧ decodeWord (commandWord 0x4 d) = .pidstep d
    ∧ decodeWord (commandWord 0x5 d) = .ctick
    ∧ decodeWord (commandWord 0x6 d) = .ppush (d.extractLsb' 0 8)
    ∧ decodeWord (commandWord 0x7 d) = .pclr
    ∧ decodeWord (commandWord 0x8 d) = .build (d.extractLsb' 0 8) (d.extractLsb' 8 8)
    ∧ decodeWord (commandWord 0x9 d) = .rxarm (d.extractLsb' 0 8)
    ∧ decodeWord (commandWord 0xA d) = .rxbyte (d.extractLsb' 0 8)
    ∧ decodeWord (commandWord 0xB d) = .rxtmo
    ∧ decodeWord (commandWord 0xC d) = .reservedC
    ∧ decodeWord (commandWord 0xD d) = .reservedD
    ∧ decodeWord (commandWord 0xE d) = .reservedE
    ∧ decodeWord (commandWord 0xF d) = .reset

/-- The worked encodings of R116 and the junk-bit example V-E3, and one packet of each direction. -/
def Obligations.WrittenOutWordsDecode : Prop :=
  decodeWord 0x100000005 = .hall 5
  ∧ decodeWord 0x1FFFFFFFD = .hall 5
  ∧ decodeWord 0x200000000 = .tick
  ∧ decodeWord 0x600000074 = .ppush 0x74
  ∧ decodeWord 0xA000000FD = .rxbyte 0xFD
  ∧ decodeWord 0xF00000000 = .reset
  ∧ decodePacket [0xFF, 0xFF, 0xFD, 0x00, 0x01, 0x09, 0x00, 0x03, 0x74, 0x00, 0x00, 0x08, 0x00, 0x00]
      = .ok (.pktWrite 0x01 [0x74, 0x00, 0x00, 0x08, 0x00, 0x00])
  ∧ decodePacket [0xFF, 0xFF, 0xFD, 0x00, 0x01, 0x04, 0x00, 0x55, 0x00, 0x0A, 0x4C]
      = .ok (.pktStatus 0x01 [0x00] 0x4C0A)

/-- The port codes of R98 to R102, and the code points the spec says are never produced. -/
def Obligations.RegisterCodesAsListed : Prop :=
  [MotionEvent.noTransition, .forward, .backward, .error].map MotionEvent.code = [0, 1, 2, 3]
  ∧ [ErrLevel.none, .soft, .hard].map ErrLevel.code = [0, 1, 2]
  ∧ (∀ e : ErrLevel, e.code ≠ 3)
  ∧ [FaultCause.noFault, .consecutiveTickFaults, .velocityBound, .setpointRange].map FaultCause.code = [0, 1, 2, 3]
  ∧ [RxState.idle, .hunt, .id, .lenLo, .lenHi, .instr, .params, .crcLo, .crcHi, .done].map RxState.code
      = [0, 1, 2, 3, 4, 5, 6, 7, 8, 9]
  ∧ (∀ x : RxState, x.code.toNat < 10)
  ∧ [RxCause.none, .idMismatch, .badLength, .instrMismatch, .badStuffing, .crcMismatch, .timeout,
      .paramOverflow].map RxCause.code = [0, 1, 2, 3, 4, 5, 6, 7]

/-! ### The step -/

/-- A step takes the oldest request and runs the instruction it decodes to, on the state without that request;
bytes that are no packet instruction are received one `RXBYTE` each, the model's choice (log 6; R107, R113). How
requests wait at the port is the model's (log 3). -/
def Obligations.StepRunsDecodedInstruction : Prop :=
  (∀ (s : State) (r : Request) (rest : List Input) (i : Instr),
    s.port = .request r :: rest → decode r = .ok i → step s = exec i { s with port := rest })
  ∧ (∀ (s : State) (nbits w : Nat) (i : Instr),
    decodeTableWord nbits w = some i → step (s.withFetchWord nbits w) = exec i s)
  ∧ (∀ (s : State) (bytes : List Byte) (rest : List Input) (e : DecodeError),
    s.port = .request (.packet bytes) :: rest → decode (.packet bytes) = .error e →
      step s = execSeq (rxFeedOps bytes) { s with port := rest })

/-- With nothing presented the block does nothing. This is the model's choice (log 4). -/
def Obligations.IdleStepChangesNothing : Prop :=
  ∀ s : State, s.port = [] → step s = .next s

/-- R310: the external reset input and `RESET` have one effect, the power-on state of the block, and leave the
configuration (and the inputs still waiting, log 14). -/
def Obligations.ResetCausesHaveOneEffect : Prop :=
  ∀ (s : State) (rest : List Input), s.port = .externalReset :: rest →
    step s = .next { State.resetWith s.cfg with port := rest }
    ∧ exec .reset { s with port := rest } = .next { State.resetWith s.cfg with port := rest }

/-- R75: a sensor event presented together with a tick is performed before it. The queue is the model's (log 3). -/
def Obligations.CoincidentSensorEventGoesFirst : Prop :=
  ∀ (s t : State) (r : HallReading) (tickOp : Instr), s.port = [] → tickOp = .tick ∨ tickOp = .ctick →
    step (s.presentTogether r tickOp) = .next t →
    t.port = [.request (encode tickOp)]
      ∧ exec (.hall r) { s with port := [.request (encode tickOp)] } = .next t
      ∧ step t = exec tickOp { t with port := [] }

/-! ### System operations and the Faulted state -/

/-- R260: `NOP` writes `op_ok <- 1` in every state and nothing else. -/
def Obligations.NopOnlySetsOpOk : Prop :=
  ∀ s : State, exec .nop s = .next { s with status := { s.status with opOk := true } }

/-- R261 with the table of R44: `RESET` gives every register and memory its reset value, in every state. The
configuration and the waiting inputs are no registers of the block: that a reset keeps them is the model's choice
(logs 1, 14). -/
def Obligations.ResetRestoresEveryRegister : Prop :=
  ∀ s : State, ∃ t : State, exec .reset s = .next t
    ∧ t.cfg = s.cfg ∧ t.port = s.port
    ∧ t.htc = { seeded := false, prev := 0, event := .noTransition, eventValid := false }
    ∧ (t.vwe.cnt = 0 ∧ (∀ i, t.vwe.buf.read i = 0) ∧ t.vwe.vsum = 0 ∧ t.vwe.cur = 0 ∧ t.vwe.err = .none
        ∧ t.vwe.velOut = 0 ∧ t.vwe.softErrCnt = 0 ∧ t.vwe.ticks = 0)
    ∧ t.pid = { setpoint := 0, integral := 0, lastError := 0, pidRaw := 0, pidOut := 0 }
    ∧ t.status = { fault := false, cause := .noFault, opOk := true }
    ∧ (t.tx.p.toList = List.replicate 8 0 ∧ t.tx.pn = 0 ∧ (∀ i, t.tx.buf.read i = 0) ∧ t.tx.len = 0
        ∧ t.tx.valid = false)
    ∧ (t.rx.state = .idle ∧ t.rx.expect = 0 ∧ t.rx.hdr = 0 ∧ t.rx.id = 0 ∧ t.rx.len = 0 ∧ t.rx.instr = 0
        ∧ t.rx.rem = 0 ∧ t.rx.win = 0 ∧ t.rx.crc = 0 ∧ t.rx.crcLo = 0 ∧ t.rx.r.toList = List.replicate 8 0
        ∧ t.rx.rn = 0 ∧ t.rx.done = false ∧ t.rx.ok = false ∧ t.rx.cause = .none)

/-- R262: the reserved codes are refused in the Operational and in the Faulted state alike, and set no fault. -/
def Obligations.ReservedCodesAreRefused : Prop :=
  ∀ (i : Instr) (s : State), i = .reservedC ∨ i = .reservedD ∨ i = .reservedE →
    exec i s = .next { s with status := { s.status with opOk := false } }

/-- R285: while `fault = 1` every operation except `NOP` and `RESET` is refused. -/
def Obligations.FaultedStateRefusesOperations : Prop :=
  ∀ (i : Instr) (s : State), s.status.fault = true → i ≠ .nop → i ≠ .reset →
    exec i s = .next { s with status := { s.status with opOk := false } }

/-- R96: an operation of the command port is refused in exactly the four listed cases, and a refusal changes nothing
but `op_ok`. -/
def Obligations.RefusalsAreExactlyTheListed : Prop :=
  ∀ (w : CommandWord) (s t : State), exec (decodeWord w) s = .next t →
    (t.status.opOk = false ↔
      decodeWord w = .reservedC ∨ decodeWord w = .reservedD ∨ decodeWord w = .reservedE
      ∨ (s.status.fault = true ∧ decodeWord w ≠ .nop ∧ decodeWord w ≠ .reset)
      ∨ ((∃ b, decodeWord w = .ppush b) ∧ s.tx.pn.val = 8)
      ∨ (((∃ b, decodeWord w = .rxbyte b) ∨ decodeWord w = .rxtmo)
          ∧ (s.rx.state = .idle ∨ s.rx.state = .done)))
    ∧ (t.status.opOk = false → t = { s with status := { s.status with opOk := false } })

/-- R283: fault entry writes the fault registers and the two PID outputs, and nothing else. -/
def Obligations.FaultEntryWritesFourRegisters : Prop :=
  ∀ (s : State) (c : FaultCause),
    s.enterFault c = { s with
      status := { fault := true, cause := c, opOk := s.status.opOk }
      pid := { s.pid with pidRaw := 0, pidOut := 0 } }

/-- R282: only the three hard-fault causes set `fault`: a tick with one of its two causes, or `SETPT`. -/
def Obligations.FaultCausesAreAClosedList : Prop :=
  ∀ (i : Instr) (s t : State), s.status.fault = false → exec i s = .next t → t.status.fault = true →
    ((i = .tick ∨ i = .ctick) ∧ t.vwe.err = .hard
      ∧ ((s.vwe.cnt = countSentinel ∧ s.vwe.err = .soft ∧ t.status.cause = .consecutiveTickFaults)
        ∨ (s.vwe.cnt ≠ countSentinel ∧ t.status.cause = .velocityBound
            ∧ s.par.windowLength * s.par.maxPerTickCount < (wordValue t.vwe.vsum).natAbs)))
    ∨ (∃ v : Word, i = .setpt v ∧ s.par.setpointMax < (wordValue v).natAbs ∧ t.status.cause = .setpointRange
        ∧ t.vwe.err = s.vwe.err)

/-- R287: the Faulted state is left only by `RESET` or the external reset input, which restore the whole reset state;
until then the cause, the error latch, the window and the controller stay as they are. The queue of inputs, and that
a reset keeps the waiting ones, are the model's choice (logs 3, 14). -/
def Obligations.FaultIsLatchedUntilReset : Prop :=
  ∀ s t : State, s.status.fault = true → step s = .next t →
    (t.status.fault = true ∧ t.status.cause = s.status.cause ∧ t.vwe = s.vwe ∧ t.pid = s.pid)
    ∨ ((∃ rest, s.port = .externalReset :: rest) ∧ t = { State.resetWith s.cfg with port := s.port.tail })
    ∨ ((∃ r rest, s.port = .request r :: rest ∧ decode r = .ok .reset)
        ∧ t = { State.resetWith s.cfg with port := s.port.tail })

/-! ### The Hall decoder -/

/-- R131: the successor tables of every well-formed configuration are inverse to each other, stay in 1..6, and give
three different readings `p`, forward and backward successor. -/
def Obligations.HallSuccessorsAreInverse : Prop :=
  ∀ (c : Config) (p : HallReading), validReading p = true →
    validReading (hallFwd c.val p) = true ∧ validReading (hallBwd c.val p) = true
    ∧ hallBwd c.val (hallFwd c.val p) = p ∧ hallFwd c.val (hallBwd c.val p) = p
    ∧ hallFwd c.val p ≠ p ∧ hallBwd c.val p ≠ p ∧ hallFwd c.val p ≠ hallBwd c.val p

/-- R132: the classification, and that for each `p` exactly one reading gives NoTransition, one Forward, one Backward
and five give Error. -/
def Obligations.ClassificationOfEveryReading : Prop :=
  ∀ (c : Config) (p : HallReading), validReading p = true →
    classify c.val p 0 = .error ∧ classify c.val p 7 = .error
    ∧ classify c.val p p = .noTransition
    ∧ classify c.val p (hallBwd c.val p) = .backward
    ∧ classify c.val p (hallFwd c.val p) = .forward
    ∧ (∀ r, r ≠ p → r ≠ hallBwd c.val p → r ≠ hallFwd c.val p → classify c.val p r = .error)
    ∧ (let count := fun e =>
        (([0, 1, 2, 3, 4, 5, 6, 7] : List HallReading).filter (fun r => decide (classify c.val p r = e))).length
      count .noTransition = 1 ∧ count .forward = 1 ∧ count .backward = 1 ∧ count .error = 5)

/-- R133 (with R134, R135, R136): every case of `HALL`. -/
def Obligations.HallPerformsEveryCase : Prop :=
  ∀ (r : HallReading) (s : State),
    (s.status.fault = true → exec (.hall r) s = .next { s with status := { s.status with opOk := false } })
    ∧ (s.status.fault = false → s.htc.seeded = false → 1 ≤ r.toNat → r.toNat ≤ 6 →
        exec (.hall r) s = .next { s with
          status := { s.status with opOk := true }
          htc := { seeded := true, prev := r, event := .noTransition, eventValid := false } })
    ∧ (s.status.fault = false → s.htc.seeded = false → r.toNat = 0 ∨ r.toNat = 7 →
        exec (.hall r) s = .next { s with
          status := { s.status with opOk := true }
          htc := { s.htc with event := .error, eventValid := true }
          vwe := { s.vwe with cnt := countSentinel } })
    ∧ (s.status.fault = false → s.htc.seeded = true → 1 ≤ s.htc.prev.toNat → s.htc.prev.toNat ≤ 6 →
        exec (.hall r) s = .next { s with
          status := { s.status with opOk := true }
          htc := { seeded := true, prev := if 1 ≤ r.toNat ∧ r.toNat ≤ 6 then r else s.htc.prev,
                   event := classify s.par s.htc.prev r, eventValid := true }
          vwe := { s.vwe with cnt := accumulate s.vwe.cnt (classify s.par s.htc.prev r) } })

/-- R151, R152: the per-tick count's step for every event. -/
def Obligations.AccumulateStepsOrMarks : Prop :=
  (∀ e, accumulate countSentinel e = countSentinel)
  ∧ ∀ cnt : Byte, cnt ≠ countSentinel →
    (countValue cnt < 127 → countValue (accumulate cnt .forward) = countValue cnt + 1)
    ∧ (countValue cnt = 127 → countValue (accumulate cnt .forward) = -128)
    ∧ (-127 < countValue cnt → countValue (accumulate cnt .backward) = countValue cnt - 1)
    ∧ (countValue cnt = -127 → countValue (accumulate cnt .backward) = -128)
    ∧ accumulate cnt .noTransition = cnt
    ∧ countValue (accumulate cnt .error) = -128

/-- R138: a contiguous walk of fewer than 128 steps in one tick never ends in Error, and the count is its signed
length. -/
def Obligations.ContiguousWalkCountsItsSteps : Prop :=
  ∀ (s : State) (k : Nat), s.status.fault = false → s.htc.seeded = true → validReading s.htc.prev = true →
    s.vwe.cnt = 0 → 0 < k → k < 128 →
    (∃ t, execSeq (walkForward s.par s.htc.prev k) s = .next t ∧ t.htc.event = .forward ∧ t.htc.eventValid = true
      ∧ countValue t.vwe.cnt = k ∧ validReading t.htc.prev = true)
    ∧ (∃ t, execSeq (walkBackward s.par s.htc.prev k) s = .next t ∧ t.htc.event = .backward
      ∧ t.htc.eventValid = true ∧ countValue t.vwe.cnt = -k ∧ validReading t.htc.prev = true)

/-! ### The velocity window -/

/-- R154: a faulty tick escalates None to Soft and Soft to Hard and leaves the window alone. -/
def Obligations.FaultyTickEscalates : Prop :=
  ∀ s : State, s.status.fault = false → s.vwe.cnt = countSentinel →
    (s.vwe.err = .none →
      exec .tick s = .next { s with
        status := { s.status with opOk := true }
        vwe := { s.vwe with
          ticks := s.vwe.ticks + 1
          err := .soft
          softErrCnt := BitVec.ofNat 32 (min (s.vwe.softErrCnt.toNat + 1) (2 ^ 32 - 1))
          cnt := 0
          velOut := BitVec.ofInt 32 (truncDiv (s.vwe.vsum.toInt * s.par.tickHz) s.par.windowLength) } })
    ∧ (s.vwe.err = .soft →
      exec .tick s = .next { s with
        status := { fault := true, cause := .consecutiveTickFaults, opOk := true }
        vwe := { s.vwe with ticks := s.vwe.ticks + 1, err := .hard, cnt := 0, velOut := 0 }
        pid := { s.pid with pidOut := 0, pidRaw := 0 } })

/-- R155 and R158: a normal tick under the invariant, with every value exact (nothing wraps): the slot at the cursor is
replaced, the sum slides, the bound is checked, and the scaled sum is returned. -/
def Obligations.NormalTickSlidesWindow : Prop :=
  ∀ s : State, s.Inv → s.status.fault = false → s.vwe.cnt ≠ countSentinel →
    ∃ t, exec .tick s = .next t
      ∧ wordValue t.vwe.vsum = wordValue s.vwe.vsum - slotValue s.vwe.buf s.vwe.cur + countValue s.vwe.cnt
      ∧ t.vwe.buf.read s.vwe.cur = s.vwe.cnt
      ∧ (∀ a, a ≠ s.vwe.cur → t.vwe.buf.read a = s.vwe.buf.read a)
      ∧ t.vwe.cur = (s.vwe.cur + 1) % s.par.windowLength
      ∧ t.vwe.cnt = 0 ∧ t.vwe.ticks = s.vwe.ticks + 1 ∧ t.vwe.softErrCnt = s.vwe.softErrCnt
      ∧ t.status.opOk = true
      ∧ ((wordValue t.vwe.vsum).natAbs ≤ s.par.windowLength * s.par.maxPerTickCount →
          t.vwe.err = .none
          ∧ wordValue t.vwe.velOut = truncDiv (wordValue t.vwe.vsum * s.par.tickHz) s.par.windowLength
          ∧ t.status.fault = false ∧ t.status.cause = s.status.cause ∧ t.pid = s.pid)
      ∧ (s.par.windowLength * s.par.maxPerTickCount < (wordValue t.vwe.vsum).natAbs →
          t.vwe.err = .hard ∧ t.vwe.velOut = 0
          ∧ t.status.fault = true ∧ t.status.cause = .velocityBound
          ∧ t.pid = { s.pid with pidOut := 0, pidRaw := 0 })
      ∧ t.cfg = s.cfg ∧ t.port = s.port ∧ t.htc = s.htc ∧ t.tx = s.tx ∧ t.rx = s.rx

/-- R156: with `MAX_PER_TICK_COUNT` at its default `COUNT_MAX` the bound check never fires. -/
def Obligations.DefaultBoundIsNeverExceeded : Prop :=
  ∀ s t : State, s.Inv → s.par.maxPerTickCount = countMax → s.status.fault = false →
    s.vwe.cnt ≠ countSentinel → exec .tick s = .next t → t.status.fault = false ∧ t.vwe.err = .none

/-- R298: two faulty ticks in a row end Hard; a faulty tick followed by a normal one within the bound ends None. -/
def Obligations.TwoFaultyTicksEndHard : Prop :=
  ∀ s : State, s.Inv → s.status.fault = false → s.vwe.err = .none →
    (∃ t, tickSeq [countSentinel, countSentinel] s = .next t ∧ t.vwe.err = .hard ∧ t.status.fault = true
      ∧ t.status.cause = .consecutiveTickFaults)
    ∧ ∀ c : Byte, c ≠ countSentinel → ∃ t, tickSeq [countSentinel, c] s = .next t
      ∧ (t.vwe.err = .none ∨ (t.vwe.err = .hard ∧ t.status.cause = .velocityBound
          ∧ s.par.windowLength * s.par.maxPerTickCount < (wordValue t.vwe.vsum).natAbs))

/-- R159: after any ticks from reset that do not fault, the sum is the sum of the last `min(N, W)` of the `N` normal
counts, and the cursor is `N mod W`; faulty ticks do not count. -/
def Obligations.SlidingWindowSumsLastCounts : Prop :=
  ∀ (c : Config) (counts : List Byte), ∃ t, tickSeq counts (State.resetWith c) = .next t
    ∧ (t.status.fault = false →
        let normal := counts.filter (fun x => x != countSentinel)
        wordValue t.vwe.vsum = countSum (normal.drop (normal.length - c.val.windowLength))
          ∧ t.vwe.cur = normal.length % c.val.windowLength)

/-- R161: `CTICK` is refused in the Faulted state, and else is `TICK`, then `PIDSTEP vel_out` unless the tick
faulted. -/
def Obligations.CtickIsTickThenPidstep : Prop :=
  ∀ s : State,
    (s.status.fault = true → exec .ctick s = .next { s with status := { s.status with opOk := false } })
    ∧ (s.Inv → s.status.fault = false →
      ∃ t u, exec .tick s = .next t ∧ exec .ctick s = .next u
        ∧ (t.status.fault = false → exec (.pidstep t.vwe.velOut) t = .next u)
        ∧ (t.status.fault = true → u = t ∧ u.pid.integral = s.pid.integral ∧ u.pid.lastError = s.pid.lastError
            ∧ u.pid.pidOut = 0 ∧ u.pid.pidRaw = 0))

/-- R29: `ticks` is incremented, modulo 2^32, by every performed `TICK` or `CTICK` and cleared only by reset. -/
def Obligations.TicksCountsPerformedTicks : Prop :=
  ∀ (i : Instr) (s t : State), exec i s = .next t →
    (s.status.fault = false → i = .tick ∨ i = .ctick → t.vwe.ticks.toNat = (s.vwe.ticks.toNat + 1) % 2 ^ 32)
    ∧ (i = .reset → t.vwe.ticks = 0)
    ∧ (i ≠ .reset → (s.status.fault = true ∨ (i ≠ .tick ∧ i ≠ .ctick)) → t.vwe.ticks = s.vwe.ticks)

/-- R28: `soft_err_cnt` counts the ticks that take `err` from None to Soft, saturating, and is cleared only by reset. -/
def Obligations.SoftErrorCounterCountsNoneToSoft : Prop :=
  ∀ (i : Instr) (s t : State), exec i s = .next t →
    (s.status.fault = false → (i = .tick ∨ i = .ctick) → s.vwe.err = .none → s.vwe.cnt = countSentinel →
        t.vwe.err = .soft ∧ t.vwe.softErrCnt.toNat = min (s.vwe.softErrCnt.toNat + 1) (2 ^ 32 - 1))
    ∧ (i = .reset → t.vwe.softErrCnt = 0)
    ∧ (i ≠ .reset → ¬ (s.vwe.err = .none ∧ t.vwe.err = .soft) → t.vwe.softErrCnt = s.vwe.softErrCnt)

/-! ### The PID controller -/

/-- R181: `SETPT` stores a target in range and otherwise faults with SetpointRange, the target unchanged. -/
def Obligations.SetptStoresOrFaults : Prop :=
  ∀ (v : Word) (s : State),
    (s.status.fault = true → exec (.setpt v) s = .next { s with status := { s.status with opOk := false } })
    ∧ (s.status.fault = false → v.toInt.natAbs ≤ s.par.setpointMax →
        exec (.setpt v) s = .next { s with
          status := { s.status with opOk := true }
          pid := { s.pid with setpoint := v } })
    ∧ (s.status.fault = false → s.par.setpointMax < v.toInt.natAbs →
        exec (.setpt v) s = .next { s with
          status := { fault := true, cause := .setpointRange, opOk := true }
          pid := { s.pid with pidOut := 0, pidRaw := 0 } })

/-- R184 (with R185 to R188): one control step under the invariant, every stored value exact (nothing wraps). -/
def Obligations.PidstepComputesExactly : Prop :=
  ∀ (v : Word) (s : State),
    (s.status.fault = true → exec (.pidstep v) s = .next { s with status := { s.status with opOk := false } })
    ∧ (s.Inv → s.status.fault = false →
    ∃ t, exec (.pidstep v) s = .next t
      ∧ (let error : Int := s.pid.setpoint.toInt - v.toInt
         let integral : Int := clamp (s.pid.integral.toInt + error) (-s.par.iBound) s.par.iBound
         let derivative : Int := error - s.pid.lastError.toInt
         let acc : Int := s.par.kp * error + s.par.ki * integral + s.par.kd * derivative
           + s.par.kf * s.pid.setpoint.toInt
         t.pid.integral.toInt = integral
         ∧ t.pid.lastError.toInt = error
         ∧ -2 ^ 63 ≤ acc ∧ acc < 2 ^ 63
         ∧ t.pid.pidRaw.toInt = acc / 2 ^ s.par.scaleShift
         ∧ t.pid.pidOut.toInt = clamp (acc / 2 ^ s.par.scaleShift) (-s.par.throttleMax) s.par.throttleMax)
      ∧ t.pid.setpoint = s.pid.setpoint
      ∧ t.status = { s.status with opOk := true }
      ∧ t.cfg = s.cfg ∧ t.port = s.port ∧ t.htc = s.htc ∧ t.vwe = s.vwe ∧ t.tx = s.tx ∧ t.rx = s.rx)

/-- R190: the integral never leaves its bound, from whatever value it had, and once at a bound it stays there under an
error of the same sign. -/
def Obligations.IntegralStaysWithinBound : Prop :=
  ∀ (v : Word) (s t : State), s.status.fault = false → exec (.pidstep v) s = .next t →
    t.pid.integral.toInt.natAbs ≤ s.par.iBound
    ∧ (s.pid.integral.toInt = s.par.iBound → 0 ≤ s.pid.setpoint.toInt - v.toInt →
        t.pid.integral = s.pid.integral)
    ∧ (s.pid.integral.toInt = -s.par.iBound → s.pid.setpoint.toInt - v.toInt ≤ 0 →
        t.pid.integral = s.pid.integral)

/-! ### The framer, transmit half -/

/-- R203: the table-driven CRC update equals the bitwise one, for every generator. -/
def Obligations.CrcTableEqualsBitwiseUpdate : Prop :=
  ∀ (poly c : Half) (b : Byte), crcByteByTable poly c b = crcByte poly c b

/-- R206 (a): stuffing adds the inserted bytes and nothing else, at most one for every three parameters. -/
def Obligations.StuffingInsertsAtMostOneInThree : Prop :=
  ∀ ps : List Byte, (stuff ps).1.length = ps.length + (stuff ps).2 ∧ 3 * (stuff ps).2 ≤ ps.length

/-- R206 (b): among the stuffed bytes every `FF FF FD` is followed by `FD`, so the header never occurs there. -/
def Obligations.StuffedBytesNeverHoldHeader : Prop :=
  ∀ ps before after : List Byte, (stuff ps).1 = before ++ [0xFF, 0xFF, 0xFD] ++ after →
    ∃ rest, after = 0xFD :: rest

/-- R206 (d), R207: de-stuffing undoes stuffing. -/
def Obligations.DestuffUndoesStuff : Prop :=
  ∀ ps : List Byte, destuff (stuff ps).1 = some ps

/-- R208: `PPUSH` stages the byte at `P[PN]`, or is refused when the file is full. -/
def Obligations.PpushStagesOrRefuses : Prop :=
  ∀ (b : Byte) (s : State),
    (s.status.fault = true ∨ s.tx.pn.val = 8 →
      exec (.ppush b) s = .next { s with status := { s.status with opOk := false } })
    ∧ (s.status.fault = false → s.tx.pn.val < 8 →
      ∃ t, exec (.ppush b) s = .next t
        ∧ t.tx.pn.val = s.tx.pn.val + 1
        ∧ t.tx.p.toList = s.tx.p.toList.set s.tx.pn.val b
        ∧ t.tx.buf = s.tx.buf ∧ t.tx.len = s.tx.len ∧ t.tx.valid = s.tx.valid
        ∧ t.status = { s.status with opOk := true }
        ∧ t.cfg = s.cfg ∧ t.port = s.port ∧ t.htc = s.htc ∧ t.vwe = s.vwe ∧ t.pid = s.pid ∧ t.rx = s.rx)

/-- R209: `PCLR` empties the staging file without clearing its bytes. -/
def Obligations.PclrEmptiesStaging : Prop :=
  ∀ s : State,
    (s.status.fault = true → exec .pclr s = .next { s with status := { s.status with opOk := false } })
    ∧ (s.status.fault = false →
        exec .pclr s = .next { s with
          status := { s.status with opOk := true }
          tx := { s.tx with pn := 0 } })

/-- R210 (with R211, R213): `BUILD` frames the staged parameters into the transmit buffer; the bytes at `tx_len` and
above, and every other unit, are as before. -/
def Obligations.BuildFramesStagedParameters : Prop :=
  ∀ (id instr : Byte) (s : State),
    (s.status.fault = true → exec (.build id instr) s = .next { s with status := { s.status with opOk := false } })
    ∧ (s.status.fault = false →
    ∃ t, exec (.build id instr) s = .next t
      ∧ (let params := s.tx.p.toList.take s.tx.pn.val
         let body := (stuff params).1
         let k := (stuff params).2
         let len : Half := BitVec.ofNat 16 (s.tx.pn.val + 3 + k)
         let pre : List Byte := [0xFF, 0xFF, 0xFD, 0x00, id, len.extractLsb' 0 8, len.extractLsb' 8 8, instr] ++ body
         let crc := crc16 s.par pre
         t.tx.len = 10 + s.tx.pn.val + k
         ∧ t.txPacket = pre ++ [crc.extractLsb' 0 8, crc.extractLsb' 8 8])
      ∧ (∀ a, t.tx.len ≤ a → t.tx.buf.read a = s.tx.buf.read a)
      ∧ t.tx.p = s.tx.p ∧ t.tx.pn = 0 ∧ t.tx.valid = true
      ∧ t.status = { s.status with opOk := true }
      ∧ t.cfg = s.cfg ∧ t.port = s.port ∧ t.htc = s.htc ∧ t.vwe = s.vwe ∧ t.pid = s.pid ∧ t.rx = s.rx)

/-! ### The framer, receive half -/

/-- R215: `RXARM` starts a reception in every `rx_state`; the bytes of `R` are not cleared. -/
def Obligations.RxarmStartsReception : Prop :=
  ∀ (id : Byte) (s : State),
    (s.status.fault = true → exec (.rxarm id) s = .next { s with status := { s.status with opOk := false } })
    ∧ (s.status.fault = false →
        exec (.rxarm id) s = .next { s with
          status := { s.status with opOk := true }
          rx := { state := .hunt, expect := id, hdr := 0, id := 0, len := 0, instr := 0, rem := 0, win := 0,
                  crc := s.par.crcInit, crcLo := 0, r := s.rx.r, rn := 0, done := false, ok := false,
                  cause := .none } })

/-- R216 lines 1 and 2: `RXBYTE` is refused in the Faulted state and in IDLE and DONE. -/
def Obligations.RxbyteRefusedWhenInactive : Prop :=
  ∀ (b : Byte) (s : State), s.status.fault = true ∨ s.rx.state = .idle ∨ s.rx.state = .done →
    exec (.rxbyte b) s = .next { s with status := { s.status with opOk := false } }

/-- R217: step HUNT for every match count. -/
def Obligations.RxbyteHuntsForHeader : Prop :=
  ∀ (b : Byte) (s : State), s.status.fault = false → s.rx.state = .hunt →
    (s.rx.hdr = 0 → exec (.rxbyte b) s = .next { s with
        status := { s.status with opOk := true }
        rx := { s.rx with hdr := if b = 0xFF then 1 else 0 } })
    ∧ (s.rx.hdr = 1 → exec (.rxbyte b) s = .next { s with
        status := { s.status with opOk := true }
        rx := { s.rx with hdr := if b = 0xFF then 2 else 0 } })
    ∧ (s.rx.hdr = 2 → exec (.rxbyte b) s = .next { s with
        status := { s.status with opOk := true }
        rx := { s.rx with hdr := if b = 0xFF then 2 else if b = 0xFD then 3 else 0 } })
    ∧ (s.rx.hdr = 3 → b = 0x00 → exec (.rxbyte b) s = .next { s with
        status := { s.status with opOk := true }
        rx := { s.rx with hdr := 0, crc := crcRun s.par.crcPoly s.par.crcInit [0xFF, 0xFF, 0xFD, 0x00],
                          state := .id } })
    ∧ (s.rx.hdr = 3 → b ≠ 0x00 → exec (.rxbyte b) s = .next { s with
        status := { s.status with opOk := true }
        rx := { s.rx with hdr := if b = 0xFF then 1 else 0 } })

/-- R218: step ID. -/
def Obligations.RxbyteChecksId : Prop :=
  ∀ (b : Byte) (s : State), s.status.fault = false → s.rx.state = .id →
    (b = s.rx.expect → exec (.rxbyte b) s = .next { s with
        status := { s.status with opOk := true }
        rx := { s.rx with id := b, crc := crcByte s.par.crcPoly s.rx.crc b, state := .lenLo } })
    ∧ (b ≠ s.rx.expect → exec (.rxbyte b) s = .next { s with
        status := { s.status with opOk := true }
        rx := { s.rx with id := b, crc := crcByte s.par.crcPoly s.rx.crc b, state := .done, done := true,
                          ok := false, cause := .idMismatch } })

/-- R219 and R220: the two length bytes, and the legal lengths 3 to 13 (the low byte stands in `rx_len` when the high
byte arrives, below 256 by a clause of the invariant). -/
def Obligations.RxbyteTakesLength : Prop :=
  ∀ (b : Byte) (s : State), s.status.fault = false →
    (s.rx.state = .lenLo → exec (.rxbyte b) s = .next { s with
        status := { s.status with opOk := true }
        rx := { s.rx with len := b.setWidth 16, crc := crcByte s.par.crcPoly s.rx.crc b, state := .lenHi } })
    ∧ (s.rx.state = .lenHi → s.rx.len.toNat < 256 →
        ∃ t, exec (.rxbyte b) s = .next t
          ∧ t.rx.len.toNat = s.rx.len.toNat + 256 * b.toNat
          ∧ t.rx.crc = crcByte s.par.crcPoly s.rx.crc b
          ∧ (3 ≤ t.rx.len.toNat ∧ t.rx.len.toNat ≤ 13 →
              t.rx.rem.val = t.rx.len.toNat - 3 ∧ t.rx.state = .instr
              ∧ t.rx.done = s.rx.done ∧ t.rx.ok = s.rx.ok ∧ t.rx.cause = s.rx.cause)
          ∧ (t.rx.len.toNat < 3 ∨ 13 < t.rx.len.toNat →
              t.rx.rem = s.rx.rem ∧ t.rx.state = .done ∧ t.rx.done = true ∧ t.rx.ok = false
              ∧ t.rx.cause = .badLength)
          ∧ t.rx.expect = s.rx.expect ∧ t.rx.hdr = s.rx.hdr ∧ t.rx.id = s.rx.id ∧ t.rx.instr = s.rx.instr
          ∧ t.rx.win = s.rx.win ∧ t.rx.crcLo = s.rx.crcLo ∧ t.rx.r = s.rx.r ∧ t.rx.rn = s.rx.rn
          ∧ t.status = { s.status with opOk := true }
          ∧ t.cfg = s.cfg ∧ t.port = s.port ∧ t.htc = s.htc ∧ t.vwe = s.vwe ∧ t.pid = s.pid ∧ t.tx = s.tx)

/-- R221: step INSTR. -/
def Obligations.RxbyteChecksInstruction : Prop :=
  ∀ (b : Byte) (s : State), s.status.fault = false → s.rx.state = .instr →
    (b ≠ 0x55 → exec (.rxbyte b) s = .next { s with
        status := { s.status with opOk := true }
        rx := { s.rx with instr := b, crc := crcByte s.par.crcPoly s.rx.crc b, state := .done, done := true,
                          ok := false, cause := .instrMismatch } })
    ∧ (b = 0x55 → s.rx.rem = 0 → exec (.rxbyte b) s = .next { s with
        status := { s.status with opOk := true }
        rx := { s.rx with instr := b, crc := crcByte s.par.crcPoly s.rx.crc b, state := .crcLo } })
    ∧ (b = 0x55 → s.rx.rem ≠ 0 → exec (.rxbyte b) s = .next { s with
        status := { s.status with opOk := true }
        rx := { s.rx with instr := b, crc := crcByte s.par.crcPoly s.rx.crc b, win := 0, state := .params } })

/-- R222: step PARAMS: one stuffed parameter byte, de-stuffed on the fly. -/
def Obligations.RxbyteTakesParameter : Prop :=
  ∀ (b : Byte) (s : State), s.status.fault = false → s.rx.state = .params → s.rx.rem ≠ 0 →
    ∃ t, exec (.rxbyte b) s = .next t
      ∧ t.rx.crc = crcByte s.par.crcPoly s.rx.crc b
      ∧ t.rx.rem.val = s.rx.rem.val - 1
      ∧ (s.rx.win = 3 → t.rx.rn = s.rx.rn ∧ t.rx.r = s.rx.r)
      ∧ (s.rx.win = 3 → b ≠ 0xFD → t.rx.win = 3 ∧ t.rx.state = .done ∧ t.rx.done = true ∧ t.rx.ok = false
          ∧ t.rx.cause = .badStuffing)
      ∧ (s.rx.win = 3 → b = 0xFD → t.rx.win = 0
          ∧ t.rx.state = (if s.rx.rem.val = 1 then .crcLo else .params)
          ∧ t.rx.done = s.rx.done ∧ t.rx.ok = s.rx.ok ∧ t.rx.cause = s.rx.cause)
      ∧ (s.rx.win ≠ 3 → s.rx.rn.val = 8 → t.rx.rn = s.rx.rn ∧ t.rx.r = s.rx.r ∧ t.rx.win = s.rx.win
          ∧ t.rx.state = .done ∧ t.rx.done = true ∧ t.rx.ok = false ∧ t.rx.cause = .paramOverflow)
      ∧ (s.rx.win ≠ 3 → s.rx.rn.val < 8 → t.rx.rn.val = s.rx.rn.val + 1
          ∧ t.rx.r.toList = s.rx.r.toList.set s.rx.rn.val b ∧ t.rx.win = win s.rx.win b
          ∧ (s.rx.rem.val = 1 → win s.rx.win b = 3 → t.rx.state = .done ∧ t.rx.done = true ∧ t.rx.ok = false
              ∧ t.rx.cause = .badStuffing)
          ∧ (s.rx.rem.val = 1 → win s.rx.win b ≠ 3 → t.rx.state = .crcLo ∧ t.rx.done = s.rx.done
              ∧ t.rx.ok = s.rx.ok ∧ t.rx.cause = s.rx.cause)
          ∧ (s.rx.rem.val ≠ 1 → t.rx.state = .params ∧ t.rx.done = s.rx.done ∧ t.rx.ok = s.rx.ok
              ∧ t.rx.cause = s.rx.cause))
      ∧ t.rx.expect = s.rx.expect ∧ t.rx.hdr = s.rx.hdr ∧ t.rx.id = s.rx.id ∧ t.rx.len = s.rx.len
      ∧ t.rx.instr = s.rx.instr ∧ t.rx.crcLo = s.rx.crcLo
      ∧ t.status = { s.status with opOk := true }
      ∧ t.cfg = s.cfg ∧ t.port = s.port ∧ t.htc = s.htc ∧ t.vwe = s.vwe ∧ t.pid = s.pid ∧ t.tx = s.tx

/-- R223 and R224: the two CRC bytes and the verdict. -/
def Obligations.RxbyteChecksCrc : Prop :=
  ∀ (b : Byte) (s : State), s.status.fault = false →
    (s.rx.state = .crcLo → exec (.rxbyte b) s = .next { s with
        status := { s.status with opOk := true }
        rx := { s.rx with crcLo := b, state := .crcHi } })
    ∧ (s.rx.state = .crcHi → s.rx.crcLo.toNat + 256 * b.toNat = (s.rx.crc ^^^ s.par.crcXorOut).toNat →
        exec (.rxbyte b) s = .next { s with
          status := { s.status with opOk := true }
          rx := { s.rx with state := .done, done := true, ok := true, cause := .none } })
    ∧ (s.rx.state = .crcHi → s.rx.crcLo.toNat + 256 * b.toNat ≠ (s.rx.crc ^^^ s.par.crcXorOut).toNat →
        exec (.rxbyte b) s = .next { s with
          status := { s.status with opOk := true }
          rx := { s.rx with state := .done, done := true, ok := false, cause := .crcMismatch } })

/-- R225: `RXTMO` ends an active reception and is refused otherwise. -/
def Obligations.RxtmoEndsReception : Prop :=
  ∀ s : State,
    (s.status.fault = true ∨ s.rx.state = .idle ∨ s.rx.state = .done →
      exec .rxtmo s = .next { s with status := { s.status with opOk := false } })
    ∧ (s.status.fault = false → s.rx.state ≠ .idle → s.rx.state ≠ .done →
      exec .rxtmo s = .next { s with
        status := { s.status with opOk := true }
        rx := { s.rx with state := .done, done := true, ok := false, cause := .timeout } })

/-! ### The packet instructions -/

/-- R113 and R227: each packet instruction the block sends is the sequence `SEND` with its instruction byte, in every
state; that the sequence is one step is the model's choice (log 5). -/
def Obligations.PacketSendIsSendSequence : Prop :=
  ∀ (id : Byte) (params : List Byte) (s : State),
    exec (.pktWrite id params) s = execSeq (sendOps id 0x03 params) s
    ∧ exec (.pktRegWrite id params) s = execSeq (sendOps id 0x04 params) s
    ∧ exec (.pktAction id params) s = execSeq (sendOps id 0x05 params) s
    ∧ exec (.pktFactoryReset id params) s = execSeq (sendOps id 0x06 params) s

/-- R229 to R232 with R227 and R228: the block frames the packet, and for a unicast id it awaits the response. One step
is the model's choice (log 5). -/
def Obligations.PacketSendFramesPacket : Prop :=
  ∀ (id instr : Byte) (i : Instr) (params : List Byte) (s : State),
    s.status.fault = false → params.length ≤ 8 →
    (i = .pktWrite id params ∧ instr = 0x03) ∨ (i = .pktRegWrite id params ∧ instr = 0x04)
      ∨ (i = .pktAction id params ∧ instr = 0x05) ∨ (i = .pktFactoryReset id params ∧ instr = 0x06) →
    ∃ t, exec i s = .next t
      ∧ t.txPacket = framePacket s.par id instr params
      ∧ t.tx.len = 10 + params.length + (stuff params).2 ∧ t.tx.valid = true ∧ t.tx.pn = 0
      ∧ t.tx.p.toList = params ++ s.tx.p.toList.drop params.length
      ∧ (∀ a, t.tx.len ≤ a → t.tx.buf.read a = s.tx.buf.read a)
      ∧ (id = 0xFE → t.rx = s.rx)
      ∧ (id ≠ 0xFE → t.rx = s.rx.arm s.par id)
      ∧ t.status = { s.status with opOk := true }
      ∧ t.cfg = s.cfg ∧ t.port = s.port ∧ t.htc = s.htc ∧ t.vwe = s.vwe ∧ t.pid = s.pid

/-- R233 with R113: a `PKT.STATUS` packet is its bytes fed one by one, in every state; and where a parameter is still to
come whenever the parser is in PARAMS, it always completes. One step is the model's choice (logs 5, 7). -/
def Obligations.StatusPacketIsFedByteByByte : Prop :=
  ∀ (id : Byte) (params : List Byte) (crc : Half) (s : State),
    exec (.pktStatus id params crc) s
      = execSeq (rxFeedOps (framePre id 0x55 params ++ [crc.extractLsb' 0 8, crc.extractLsb' 8 8])) s
    ∧ ((s.rx.state = .params → s.rx.rem ≠ 0) → ∃ t, exec (.pktStatus id params crc) s = .next t
        ∧ t.cfg = s.cfg ∧ t.port = s.port ∧ t.htc = s.htc ∧ t.vwe = s.vwe ∧ t.pid = s.pid ∧ t.tx = s.tx
        ∧ t.status.fault = s.status.fault ∧ t.status.cause = s.status.cause)

/-- R233, R235: after `RXARM` with its id a STATUS packet is received whole: accepted when its CRC field is right, and
ended with CrcMismatch when it differs only there; its parameters stand in `R`. That the packet is one step with its
CRC field as an operand is the model's choice (logs 5, 7). -/
def Obligations.StatusResponseIsReceived : Prop :=
  ∀ (id : Byte) (params : List Byte) (crc : Half) (s : State), s.status.fault = false → params.length ≤ 8 →
    ∃ t u, exec (.rxarm id) s = .next t ∧ exec (.pktStatus id params crc) t = .next u
      ∧ u.rx.state = .done ∧ u.rx.done = true ∧ u.rx.id = id ∧ u.rx.instr = 0x55
      ∧ u.rx.len.toNat = params.length + 3 + (stuff params).2
      ∧ u.rx.rn.val = params.length ∧ u.rx.r.toList = params ++ s.rx.r.toList.drop params.length
      ∧ (crc = crc16 s.par (framePre id 0x55 params) → u.rx.ok = true ∧ u.rx.cause = .none)
      ∧ (crc ≠ crc16 s.par (framePre id 0x55 params) → u.rx.ok = false ∧ u.rx.cause = .crcMismatch)
      ∧ u.status = { s.status with opOk := true }
      ∧ u.cfg = s.cfg ∧ u.port = s.port ∧ u.htc = s.htc ∧ u.vwe = s.vwe ∧ u.pid = s.pid ∧ u.tx = s.tx

/-- R235: what `BUILD id, 0x55` frames, the receive half accepts at its last byte with the same parameters, for every
value of the three CRC parameters; a packet built with another instruction byte fails with InstrMismatch. -/
def Obligations.BuiltPacketRoundTrips : Prop :=
  ∀ (id instr : Byte) (s : State), s.status.fault = false →
    ∃ t u v, exec (.build id instr) s = .next t ∧ exec (.rxarm id) t = .next u
      ∧ (instr = 0x55 → execSeq (rxFeedOps t.txPacket) u = .next v
          ∧ v.rx.state = .done ∧ v.rx.done = true ∧ v.rx.ok = true ∧ v.status.opOk = true
          ∧ v.rx.id = id ∧ v.rx.instr = 0x55 ∧ v.rx.rn.val = s.tx.pn.val
          ∧ v.rx.r.toList.take s.tx.pn.val = s.tx.p.toList.take s.tx.pn.val
          ∧ ∀ n w, n < t.tx.len → execSeq (rxFeedOps (t.txPacket.take n)) u = .next w → w.rx.done = false)
      ∧ (instr ≠ 0x55 → execSeq (rxFeedOps (t.txPacket.take 8)) u = .next v
          ∧ v.rx.state = .done ∧ v.rx.done = true ∧ v.rx.ok = false ∧ v.rx.cause = .instrMismatch
          ∧ v.rx.id = id ∧ v.rx.len.toNat = s.tx.pn.val + 3 + (stuff (s.tx.p.toList.take s.tx.pn.val)).2)

/-! ### The whole machine -/

/-- R45: every step keeps the invariant of the reachable states, from every state that meets it. -/
def Obligations.StepKeepsInvariant : Prop :=
  ∀ s t : State, s.Inv → step s = .next t → t.Inv

/-- R45 at reset, in every configuration, the hardware's among them. -/
def Obligations.ResetMeetsInvariant : Prop :=
  (∀ c : Config, (State.resetWith c).Inv) ∧ State.reset.Inv

/-- The faults of the model (log 11) are unreachable: no step of a state that meets the invariant ends in one. -/
def Obligations.InvariantExcludesModelFaults : Prop :=
  ∀ s : State, s.Inv → ¬ Faults (step s)

/-- R11, R43: no step changes the configuration, and a step takes at most the oldest input from the port (log 3). -/
def Obligations.StepKeepsConfiguration : Prop :=
  ∀ s t : State, step s = .next t → t.cfg = s.cfg ∧ t.port = s.port.tail

/-- R226, R74 (program P5): the framer and the motor side share no register but the fault latch and `op_ok`: a framer
operation leaves the motor units and the fault latch, a motor operation leaves the framer. -/
def Obligations.FramerAndMotorLeaveEachOther : Prop :=
  ∀ (i : Instr) (s t : State), exec i s = .next t →
    (isFramerOp i = true → t.htc = s.htc ∧ t.vwe = s.vwe ∧ t.pid = s.pid
      ∧ t.status.fault = s.status.fault ∧ t.status.cause = s.status.cause)
    ∧ (isMotorOp i = true → t.tx = s.tx ∧ t.rx = s.rx)

/-- R74 (program P5): a framer operation and a motor operation that does not fault give the same state in either order,
but for `op_ok`. -/
def Obligations.FramerAndMotorCommute : Prop :=
  ∀ (i j : Instr) (s t u : State), isFramerOp i = true → isMotorOp j = true → s.status.fault = false →
    execSeq [i, j] s = .next t → execSeq [j, i] s = .next u → t.status.fault = false →
    t.perform = u.perform

/-- R74, R96, R107: under the invariant every step completes, whatever the environment presents: every command word,
every packet, and every byte string that is no packet. The queue and the received bytes are the model's choice
(logs 3, 6). -/
def Obligations.EveryStepCompletes : Prop :=
  ∀ s : State, s.Inv → ∃ t, step s = .next t
end

