-- ==== Sys2Proof/Laws/Memory.lean ====
section
/-! SUPPORT. The laws of the byte memories: a read after a write, the canonical form kept by every operation, the extent
of a write, and the window sum after a write. -/

namespace Sys2Proof.Machine

@[simp] theorem Memory.read_nil (x : Nat) : Memory.read [] x = Memory.blank := rfl

theorem Memory.read_cons (c : Host.Cell) (m : Memory) (x : Nat) :
    Memory.read (c :: m) x = if c.1 = x then c.2 else Memory.read m x := rfl

/-- An address that no cell lists reads as blank. -/
theorem Memory.read_of_not_listed {m : Memory} {x : Nat} (h : ∀ c ∈ m, c.1 ≠ x) :
    Memory.read m x = Memory.blank := by
  induction m with
  | nil => rfl
  | cons c m ih =>
    rw [Memory.read_cons, if_neg (h c (by simp))]
    exact ih fun d hd => h d (by simp [hd])

theorem Memory.read_filter_of_ne (m : Memory) {a x : Nat} (h : x ≠ a) :
    Memory.read (m.filter (fun c => c.1 != a)) x = Memory.read m x := by
  induction m with
  | nil => rfl
  | cons c m ih =>
    by_cases hc : c.1 = a
    · have hx : ¬ c.1 = x := fun e => h (e.symm.trans hc)
      rw [List.filter_cons_of_neg (by simp [hc]), ih, Memory.read_cons, if_neg hx]
    · rw [List.filter_cons_of_pos (by simpa using hc), Memory.read_cons, Memory.read_cons, ih]

theorem Memory.read_insert_of_ne (m : Memory) {a x : Nat} (b : Byte) (h : x ≠ a) :
    Memory.read (Memory.insert m a b) x = Memory.read m x := by
  induction m with
  | nil => simp [Memory.insert, Memory.read_cons, h.symm]
  | cons c m ih =>
    unfold Memory.insert
    split
    · rw [Memory.read_cons, if_neg h.symm]
    · rw [Memory.read_cons, Memory.read_cons, ih]

theorem Memory.read_insert_self {m : Memory} {a : Nat} (b : Byte) (h : ∀ c ∈ m, c.1 ≠ a) :
    Memory.read (Memory.insert m a b) a = b := by
  induction m with
  | nil => simp [Memory.insert, Memory.read_cons]
  | cons c m ih =>
    unfold Memory.insert
    split
    · simp [Memory.read_cons]
    · rw [Memory.read_cons, if_neg (h c (by simp))]
      exact ih fun d hd => h d (by simp [hd])

/-- A read after a write to the same address gives the byte written. -/
@[simp] theorem Memory.read_write_self (m : Memory) (a : Nat) (b : Byte) :
    Memory.read (Memory.write m a b) a = b := by
  have hf : ∀ c ∈ m.filter (fun c => c.1 != a), c.1 ≠ a := by simp
  unfold Memory.write
  split
  · rw [Memory.read_of_not_listed hf]; simp_all
  · exact Memory.read_insert_self b hf

/-- A write leaves every other address alone. -/
theorem Memory.read_write_of_ne (m : Memory) {a x : Nat} (b : Byte) (h : x ≠ a) :
    Memory.read (Memory.write m a b) x = Memory.read m x := by
  unfold Memory.write
  split
  · exact Memory.read_filter_of_ne m h
  · rw [Memory.read_insert_of_ne _ b h, Memory.read_filter_of_ne m h]

theorem Memory.mem_insert {m : Memory} {a : Nat} {b : Byte} {c : Host.Cell} :
    c ∈ Memory.insert m a b ↔ c = (a, b) ∨ c ∈ m := by
  induction m with
  | nil => simp [Memory.insert]
  | cons d m ih =>
    unfold Memory.insert
    split
    · simp
    · simp only [List.mem_cons, ih]; tauto

/-- Every cell after a write is the one written or an old one. -/
theorem Memory.mem_write {m : Memory} {a : Nat} {b : Byte} {c : Host.Cell} (h : c ∈ Memory.write m a b) :
    c = (a, b) ∨ c ∈ m := by
  unfold Memory.write at h
  split at h
  · exact .inr (List.mem_of_mem_filter h)
  · exact (Memory.mem_insert.1 h).imp id List.mem_of_mem_filter

theorem Memory.wf_filter {m : Memory} (h : Memory.wf m) (f : Host.Cell → Bool) : Memory.wf (m.filter f) :=
  ⟨h.1.filter f, fun c hc => h.2 c (List.mem_of_mem_filter hc)⟩

theorem Memory.wf_insert {m : Memory} {a : Nat} {b : Byte} (h : Memory.wf m) (ha : ∀ c ∈ m, c.1 ≠ a)
    (hb : b ≠ Memory.blank) : Memory.wf (Memory.insert m a b) := by
  refine ⟨?_, fun c hc => (Memory.mem_insert.1 hc).elim (fun e => by simpa [e] using hb) (h.2 c)⟩
  induction m with
  | nil => simp [Memory.insert]
  | cons d m ih =>
    have hd := List.pairwise_cons.1 h.1
    have hda := ha d (by simp)
    unfold Memory.insert
    split
    · rename_i hlt
      refine List.pairwise_cons.2 ⟨fun c hc => ?_, h.1⟩
      rcases List.mem_cons.1 hc with rfl | hc
      · exact hlt
      · exact hlt.trans (hd.1 c hc)
    · rename_i hge
      refine List.pairwise_cons.2 ⟨fun c hc => ?_, ih ⟨hd.2, fun c hc => h.2 c (by simp [hc])⟩
        fun c hc => ha c (by simp [hc])⟩
      rcases Memory.mem_insert.1 hc with rfl | hc
      · show d.1 < a
        omega
      · exact hd.1 c hc

/-- A write keeps the canonical form. -/
theorem Memory.wf_write {m : Memory} (h : Memory.wf m) (a : Nat) (b : Byte) : Memory.wf (Memory.write m a b) := by
  unfold Memory.write
  split
  · exact Memory.wf_filter h _
  · exact Memory.wf_insert (Memory.wf_filter h _) (by simp) (by assumption)

/-- A write of several bytes keeps the canonical form. -/
theorem Memory.wf_writeBytes {m : Memory} (h : Memory.wf m) (a : Nat) (bytes : List Byte) :
    Memory.wf (Memory.writeBytes m a bytes) := by
  induction bytes generalizing m a with
  | nil => exact h
  | cons b bs ih => exact ih (Memory.wf_write h a b) (a + 1)

/-- Every cell after a write of several bytes is an old one or lies where the bytes went. -/
theorem Memory.mem_writeBytes {m : Memory} {a : Nat} {bytes : List Byte} {c : Host.Cell}
    (h : c ∈ Memory.writeBytes m a bytes) : c ∈ m ∨ (a ≤ c.1 ∧ c.1 < a + bytes.length) := by
  induction bytes generalizing m a with
  | nil => exact .inl h
  | cons b bs ih =>
    rcases ih h with h | ⟨h1, h2⟩
    · rcases Memory.mem_write h with rfl | h
      · exact .inr ⟨le_refl _, by simp⟩
      · exact .inl h
    · exact .inr ⟨by omega, by simp; omega⟩

/-- What reads after a write of several bytes. -/
theorem Memory.read_writeBytes (m : Memory) (a : Nat) (bytes : List Byte) (x : Nat) :
    Memory.read (Memory.writeBytes m a bytes) x
      = if a ≤ x ∧ x < a + bytes.length then bytes.getD (x - a) Memory.blank else Memory.read m x := by
  induction bytes generalizing m a with
  | nil => simp only [Memory.writeBytes, List.length_nil]; rw [if_neg (by omega)]
  | cons b bs ih =>
    rw [Memory.writeBytes, ih]
    by_cases hx : x = a
    · subst hx
      rw [if_neg (by omega), if_pos (by simp), Memory.read_write_self]; simp
    · rw [Memory.read_write_of_ne m b hx]
      by_cases h : a + 1 ≤ x ∧ x < a + 1 + bs.length
      · have e : x - a = (x - (a + 1)) + 1 := by omega
        rw [if_pos h, if_pos (by simp; omega), e, List.getD_cons_succ]
      · rw [if_neg h, if_neg (by simp; omega)]

/-- Reading back the bytes written at address 0. -/
theorem Memory.readBytes_writeBytes (m : Memory) (bytes : List Byte) :
    Memory.readBytes (Memory.writeBytes m 0 bytes) bytes.length = bytes := by
  refine List.ext_getElem (by simp [Memory.readBytes]) fun i h1 h2 => ?_
  simp only [Memory.readBytes, List.getElem_map, List.getElem_range, Memory.read_writeBytes]
  rw [if_pos (by omega)]
  simp [h2]

/-- A store beyond the slots summed does not change the sum. -/
theorem windowSum_write_beyond (buf : Memory) {a n : Nat} (b : Byte) (h : n ≤ a) :
    windowSum (buf.write a b) n = windowSum buf n := by
  induction n with
  | zero => rfl
  | succ n ih =>
    rw [windowSum, windowSum, ih (by omega), slotValue, slotValue, Memory.read_write_of_ne buf b (by omega)]

/-- A store into a slot of the window changes the sum by the difference of the slot's values. -/
theorem windowSum_write (buf : Memory) {a n : Nat} (b : Byte) (h : a < n) :
    windowSum (buf.write a b) n = windowSum buf n - slotValue buf a + countValue b := by
  induction n with
  | zero => omega
  | succ n ih =>
    rw [windowSum, windowSum]
    by_cases e : a = n
    · subst e
      rw [windowSum_write_beyond buf b (le_refl _)]
      simp only [slotValue, Memory.read_write_self]
      omega
    · rw [ih (by omega), slotValue, slotValue, slotValue, Memory.read_write_of_ne buf b (fun h => e h.symm)]
      omega

end Sys2Proof.Machine
end

