-- ==== Sys2Proof/Laws/State.lean ====
section
/-! SUPPORT. The small lemmas of the state updates: one per field per update, each true by definition. -/

namespace Sys2Proof.Machine

variable (s : State)

/-! ### `State.perform` -/

@[simp] theorem State.perform_cfg : s.perform.cfg = s.cfg := rfl
@[simp] theorem State.perform_port : s.perform.port = s.port := rfl
@[simp] theorem State.perform_htc : s.perform.htc = s.htc := rfl
@[simp] theorem State.perform_vwe : s.perform.vwe = s.vwe := rfl
@[simp] theorem State.perform_pid : s.perform.pid = s.pid := rfl
@[simp] theorem State.perform_status : s.perform.status = { s.status with opOk := true } := rfl
@[simp] theorem State.perform_tx : s.perform.tx = s.tx := rfl
@[simp] theorem State.perform_rx : s.perform.rx = s.rx := rfl

/-! ### `State.refuse` -/

@[simp] theorem State.refuse_cfg : s.refuse.cfg = s.cfg := rfl
@[simp] theorem State.refuse_port : s.refuse.port = s.port := rfl
@[simp] theorem State.refuse_htc : s.refuse.htc = s.htc := rfl
@[simp] theorem State.refuse_vwe : s.refuse.vwe = s.vwe := rfl
@[simp] theorem State.refuse_pid : s.refuse.pid = s.pid := rfl
@[simp] theorem State.refuse_status : s.refuse.status = { s.status with opOk := false } := rfl
@[simp] theorem State.refuse_tx : s.refuse.tx = s.tx := rfl
@[simp] theorem State.refuse_rx : s.refuse.rx = s.rx := rfl

/-! ### `State.enterFault` -/

@[simp] theorem State.enterFault_cfg (c : FaultCause) : (s.enterFault c).cfg = s.cfg := rfl
@[simp] theorem State.enterFault_port (c : FaultCause) : (s.enterFault c).port = s.port := rfl
@[simp] theorem State.enterFault_htc (c : FaultCause) : (s.enterFault c).htc = s.htc := rfl
@[simp] theorem State.enterFault_vwe (c : FaultCause) : (s.enterFault c).vwe = s.vwe := rfl
@[simp] theorem State.enterFault_pid (c : FaultCause) :
    (s.enterFault c).pid = { s.pid with pidOut := 0, pidRaw := 0 } := rfl
@[simp] theorem State.enterFault_status (c : FaultCause) :
    (s.enterFault c).status = { s.status with fault := true, cause := c } := rfl
@[simp] theorem State.enterFault_tx (c : FaultCause) : (s.enterFault c).tx = s.tx := rfl
@[simp] theorem State.enterFault_rx (c : FaultCause) : (s.enterFault c).rx = s.rx := rfl

/-! ### `State.restoreReset` -/

@[simp] theorem State.restoreReset_cfg : s.restoreReset.cfg = s.cfg := rfl
@[simp] theorem State.restoreReset_port : s.restoreReset.port = s.port := rfl
@[simp] theorem State.restoreReset_htc : s.restoreReset.htc = .reset := rfl
@[simp] theorem State.restoreReset_vwe : s.restoreReset.vwe = .reset := rfl
@[simp] theorem State.restoreReset_pid : s.restoreReset.pid = .reset := rfl
@[simp] theorem State.restoreReset_status : s.restoreReset.status = .reset := rfl
@[simp] theorem State.restoreReset_tx : s.restoreReset.tx = .reset := rfl
@[simp] theorem State.restoreReset_rx : s.restoreReset.rx = .reset := rfl

/-! ### `State.seed` -/

@[simp] theorem State.seed_cfg (r : HallReading) : (s.seed r).cfg = s.cfg := rfl
@[simp] theorem State.seed_port (r : HallReading) : (s.seed r).port = s.port := rfl
@[simp] theorem State.seed_htc (r : HallReading) :
    (s.seed r).htc = { seeded := true, prev := r, event := .noTransition, eventValid := false } := rfl
@[simp] theorem State.seed_vwe (r : HallReading) : (s.seed r).vwe = s.vwe := rfl
@[simp] theorem State.seed_pid (r : HallReading) : (s.seed r).pid = s.pid := rfl
@[simp] theorem State.seed_status (r : HallReading) : (s.seed r).status = s.status := rfl
@[simp] theorem State.seed_tx (r : HallReading) : (s.seed r).tx = s.tx := rfl
@[simp] theorem State.seed_rx (r : HallReading) : (s.seed r).rx = s.rx := rfl

/-! ### `State.emitEvent` -/

@[simp] theorem State.emitEvent_cfg (e : MotionEvent) : (s.emitEvent e).cfg = s.cfg := rfl
@[simp] theorem State.emitEvent_port (e : MotionEvent) : (s.emitEvent e).port = s.port := rfl
@[simp] theorem State.emitEvent_htc (e : MotionEvent) :
    (s.emitEvent e).htc = { s.htc with event := e, eventValid := true } := rfl
@[simp] theorem State.emitEvent_vwe (e : MotionEvent) :
    (s.emitEvent e).vwe = { s.vwe with cnt := accumulate s.vwe.cnt e } := rfl
@[simp] theorem State.emitEvent_pid (e : MotionEvent) : (s.emitEvent e).pid = s.pid := rfl
@[simp] theorem State.emitEvent_status (e : MotionEvent) : (s.emitEvent e).status = s.status := rfl
@[simp] theorem State.emitEvent_tx (e : MotionEvent) : (s.emitEvent e).tx = s.tx := rfl
@[simp] theorem State.emitEvent_rx (e : MotionEvent) : (s.emitEvent e).rx = s.rx := rfl

/-! ### `State.follow` -/

@[simp] theorem State.follow_cfg (r : HallReading) : (s.follow r).cfg = s.cfg := rfl
@[simp] theorem State.follow_port (r : HallReading) : (s.follow r).port = s.port := rfl
@[simp] theorem State.follow_htc (r : HallReading) :
    (s.follow r).htc = { s.htc with prev := if validReading r then r else s.htc.prev } := rfl
@[simp] theorem State.follow_vwe (r : HallReading) : (s.follow r).vwe = s.vwe := rfl
@[simp] theorem State.follow_pid (r : HallReading) : (s.follow r).pid = s.pid := rfl
@[simp] theorem State.follow_status (r : HallReading) : (s.follow r).status = s.status := rfl
@[simp] theorem State.follow_tx (r : HallReading) : (s.follow r).tx = s.tx := rfl
@[simp] theorem State.follow_rx (r : HallReading) : (s.follow r).rx = s.rx := rfl

/-! ### `State.withFetchWord` -/

@[simp] theorem State.withFetchWord_cfg (n w : Nat) : (s.withFetchWord n w).cfg = s.cfg := rfl
@[simp] theorem State.withFetchWord_port (n w : Nat) :
    (s.withFetchWord n w).port = .request (tableRequest n w) :: s.port := rfl
@[simp] theorem State.withFetchWord_htc (n w : Nat) : (s.withFetchWord n w).htc = s.htc := rfl
@[simp] theorem State.withFetchWord_vwe (n w : Nat) : (s.withFetchWord n w).vwe = s.vwe := rfl
@[simp] theorem State.withFetchWord_pid (n w : Nat) : (s.withFetchWord n w).pid = s.pid := rfl
@[simp] theorem State.withFetchWord_status (n w : Nat) : (s.withFetchWord n w).status = s.status := rfl
@[simp] theorem State.withFetchWord_tx (n w : Nat) : (s.withFetchWord n w).tx = s.tx := rfl
@[simp] theorem State.withFetchWord_rx (n w : Nat) : (s.withFetchWord n w).rx = s.rx := rfl

/-! ### `State.present` -/

@[simp] theorem State.present_cfg (is : List Instr) : (s.present is).cfg = s.cfg := rfl
@[simp] theorem State.present_port (is : List Instr) :
    (s.present is).port = s.port ++ is.map (fun i => .request (encode i)) := rfl
@[simp] theorem State.present_htc (is : List Instr) : (s.present is).htc = s.htc := rfl
@[simp] theorem State.present_vwe (is : List Instr) : (s.present is).vwe = s.vwe := rfl
@[simp] theorem State.present_pid (is : List Instr) : (s.present is).pid = s.pid := rfl
@[simp] theorem State.present_status (is : List Instr) : (s.present is).status = s.status := rfl
@[simp] theorem State.present_tx (is : List Instr) : (s.present is).tx = s.tx := rfl
@[simp] theorem State.present_rx (is : List Instr) : (s.present is).rx = s.rx := rfl

/-! ### `State.resetWith` -/

@[simp] theorem State.resetWith_cfg (c : Config) : (State.resetWith c).cfg = c := rfl
@[simp] theorem State.resetWith_port (c : Config) : (State.resetWith c).port = [] := rfl
@[simp] theorem State.resetWith_htc (c : Config) : (State.resetWith c).htc = .reset := rfl
@[simp] theorem State.resetWith_vwe (c : Config) : (State.resetWith c).vwe = .reset := rfl
@[simp] theorem State.resetWith_pid (c : Config) : (State.resetWith c).pid = .reset := rfl
@[simp] theorem State.resetWith_status (c : Config) : (State.resetWith c).status = .reset := rfl
@[simp] theorem State.resetWith_tx (c : Config) : (State.resetWith c).tx = .reset := rfl
@[simp] theorem State.resetWith_rx (c : Config) : (State.resetWith c).rx = .reset := rfl

/-! ### Updates that meet -/

@[simp] theorem State.perform_refuse : s.perform.refuse = s.refuse := rfl

@[simp] theorem State.refuse_perform : s.refuse.perform = s.perform := rfl

@[simp] theorem State.refuse_refuse : s.refuse.refuse = s.refuse := rfl

@[simp] theorem State.perform_perform : s.perform.perform = s.perform := rfl

/-! ### The fault latch after the updates -/

@[simp] theorem State.perform_fault : s.perform.status.fault = s.status.fault := rfl

@[simp] theorem State.refuse_fault : s.refuse.status.fault = s.status.fault := rfl

@[simp] theorem State.enterFault_fault (c : FaultCause) : (s.enterFault c).status.fault = true := rfl

/-! ### The steps of the receive half: the fields `fail` leaves -/

@[simp] theorem Rx.fail_state (rx : Rx) (c : RxCause) : (rx.fail c).state = .done := rfl

@[simp] theorem Rx.fail_rem (rx : Rx) (c : RxCause) : (rx.fail c).rem = rx.rem := rfl

@[simp] theorem Rx.fail_r (rx : Rx) (c : RxCause) : (rx.fail c).r = rx.r := rfl

@[simp] theorem Rx.fail_rn (rx : Rx) (c : RxCause) : (rx.fail c).rn = rx.rn := rfl

@[simp] theorem Rx.fail_ok (rx : Rx) (c : RxCause) : (rx.fail c).ok = false := rfl

@[simp] theorem Rx.fail_done (rx : Rx) (c : RxCause) : (rx.fail c).done = true := rfl

@[simp] theorem Rx.fail_cause (rx : Rx) (c : RxCause) : (rx.fail c).cause = c := rfl

@[simp] theorem Rx.addCrc_crc (p : Params) (rx : Rx) (b : Byte) :
    (rx.addCrc p b).crc = crcByte p.crcPoly rx.crc b := rfl

@[simp] theorem Rx.addCrc_state (p : Params) (rx : Rx) (b : Byte) : (rx.addCrc p b).state = rx.state := rfl

@[simp] theorem Rx.addCrc_rem (p : Params) (rx : Rx) (b : Byte) : (rx.addCrc p b).rem = rx.rem := rfl

/-! ### Reset -/

/-- Both memories are in canonical form after reset, whatever the configuration. -/
theorem State.resetWith_memory_wf (c : Config) :
    Memory.wf (State.resetWith c).vwe.buf ∧ Memory.wf (State.resetWith c).tx.buf := by
  simp [State.resetWith, Vwe.reset, Tx.reset, Memory.wf]

theorem State.reset_memory_wf : Memory.wf State.reset.vwe.buf ∧ Memory.wf State.reset.tx.buf :=
  State.resetWith_memory_wf Config.hardware

end Sys2Proof.Machine
end

