-- ==== Sys2Proof/Laws/Ops.lean ====
section
/-! SUPPORT. For each shared operation one lemma that says everything it can answer; later proofs cite these and do not
unfold the operations. -/

namespace Sys2Proof.Machine

variable {s t : State}

/-! ### The gate, sequencing, the step -/

@[simp] theorem gated_of_operational {k : State → Result} (h : s.status.fault = false) : gated s k = k s := by
  simp [gated, h]

@[simp] theorem gated_of_faulted {k : State → Result} (h : s.status.fault = true) : gated s k = .next s.refuse := by
  simp [gated, h]

/-- What a gated operation answers next: a refusal in the Faulted state, else what the operation does. -/
theorem gated_eq_next {k : State → Result} :
    gated s k = .next t ↔ (s.status.fault = true ∧ t = s.refuse) ∨ (s.status.fault = false ∧ k s = .next t) := by
  cases h : s.status.fault
  · simp [h]
  · simp [h, eq_comm]

@[simp] theorem andThen_next {k : State → Result} : andThen (.next s) k = k s := rfl

@[simp] theorem andThen_fault {k : State → Result} {f : Fault} : andThen (.fault f) k = .fault f := rfl

@[simp] theorem andThen_refused {k : State → Result} {f : Refusal} : andThen (.refused f) k = .refused f := rfl

/-- Two operations in a row answer next when both do. -/
theorem andThen_eq_next {r : Result} {k : State → Result} :
    andThen r k = .next t ↔ ∃ u, r = .next u ∧ k u = .next t := by
  cases r <;> simp

/-- Two operations in a row fault when the first does, or the second does after it. -/
theorem andThen_eq_fault {r : Result} {k : State → Result} {f : Fault} :
    andThen r k = .fault f ↔ r = .fault f ∨ ∃ u, r = .next u ∧ k u = .fault f := by
  cases r <;> simp

@[simp] theorem execSeq_nil : execSeq [] s = .next s := rfl

@[simp] theorem execSeq_cons (i : Instr) (is : List Instr) : execSeq (i :: is) s = andThen (exec i s) (execSeq is) :=
  rfl

/-- Operations in a row: first one list, then the other. -/
theorem execSeq_append (is js : List Instr) (s : State) :
    execSeq (is ++ js) s = andThen (execSeq is s) (execSeq js) := by
  induction is generalizing s with
  | nil => rfl
  | cons i is ih =>
    rw [List.cons_append, execSeq_cons, execSeq_cons]
    cases exec i s with
    | next u => exact ih u
    | fault f => rfl
    | refused f => rfl

/-- Every outcome of a step: nothing presented, the external reset, an instruction, received bytes. -/
theorem step_cases (s : State) :
    (s.port = [] ∧ step s = .next s)
    ∨ (∃ rest, s.port = .externalReset :: rest ∧ step s = .next (State.restoreReset { s with port := rest }))
    ∨ (∃ r rest i, s.port = .request r :: rest ∧ decode r = .ok i ∧ step s = exec i { s with port := rest })
    ∨ (∃ bytes rest e, s.port = .request (.packet bytes) :: rest ∧ decode (.packet bytes) = .error e
        ∧ step s = receiveBytes bytes { s with port := rest }) := by
  unfold step State.nextInput
  cases hp : s.port with
  | nil => exact .inl ⟨rfl, rfl⟩
  | cons x rest =>
    cases x with
    | externalReset => exact .inr (.inl ⟨rest, rfl, rfl⟩)
    | request r =>
      cases hd : decode r with
      | ok i => exact .inr (.inr (.inl ⟨r, rest, i, rfl, hd, by simp only [hd]⟩))
      | error e =>
        cases r with
        | word w => cases hd
        | packet bytes => exact .inr (.inr (.inr ⟨bytes, rest, e, rfl, hd, by simp only [hd, Request.lineBytes]⟩))

/-- Everything a step can answer next. -/
theorem step_eq_next (h : step s = .next t) :
    (s.port = [] ∧ t = s)
    ∨ (∃ rest, s.port = .externalReset :: rest ∧ t = State.restoreReset { s with port := rest })
    ∨ (∃ r rest i, s.port = .request r :: rest ∧ decode r = .ok i ∧ exec i { s with port := rest } = .next t)
    ∨ (∃ bytes rest e, s.port = .request (.packet bytes) :: rest ∧ decode (.packet bytes) = .error e
        ∧ receiveBytes bytes { s with port := rest } = .next t) := by
  rcases step_cases s with ⟨hp, e⟩ | ⟨rest, hp, e⟩ | ⟨r, rest, i, hp, hd, e⟩ | ⟨bytes, rest, d, hp, hd, e⟩ <;>
    rw [e] at h
  · cases h; exact .inl ⟨hp, rfl⟩
  · cases h; exact .inr (.inl ⟨rest, hp, rfl⟩)
  · exact .inr (.inr (.inl ⟨r, rest, i, hp, hd, h⟩))
  · exact .inr (.inr (.inr ⟨bytes, rest, d, hp, hd, h⟩))

/-- A step that faults runs an instruction that faults, or receives bytes at a faulting receiver. -/
theorem step_eq_fault {f : Fault} (h : step s = .fault f) :
    (∃ r rest i, s.port = .request r :: rest ∧ decode r = .ok i ∧ exec i { s with port := rest } = .fault f)
    ∨ (∃ bytes rest, s.port = .request (.packet bytes) :: rest
        ∧ receiveBytes bytes { s with port := rest } = .fault f) := by
  rcases step_cases s with ⟨-, e⟩ | ⟨rest, -, e⟩ | ⟨r, rest, i, hp, hd, e⟩ | ⟨bytes, rest, d, hp, -, e⟩ <;>
    rw [e] at h
  · cases h
  · cases h
  · exact .inl ⟨r, rest, i, hp, hd, h⟩
  · exact .inr ⟨bytes, rest, hp, h⟩

/-! ### The decoder -/

/-- Everything lines 2 to 14 of `HALL` can answer next. -/
theorem hallUpdate_eq_next {r : HallReading} (h : hallUpdate r s = .next t) :
    (s.htc.seeded = false ∧ validReading r = true ∧ t = s.perform.seed r)
    ∨ (s.htc.seeded = false ∧ validReading r = false ∧ t = s.perform.emitEvent .error)
    ∨ (s.htc.seeded = true ∧ (validReading r = true → validReading s.htc.prev = true)
        ∧ t = (s.perform.emitEvent (classify s.par s.htc.prev r)).follow r) := by
  unfold hallUpdate at h
  split at h
  · rename_i hs
    cases hv : validReading r
    · simp only [hv] at h; cases h; exact .inr (.inl ⟨hs, rfl, rfl⟩)
    · simp only [hv] at h; cases h; exact .inl ⟨hs, rfl, rfl⟩
  · rename_i hs
    split at h
    · cases h
    · rename_i hv
      cases h
      refine .inr (.inr ⟨by simpa using hs, fun hr => ?_, rfl⟩)
      by_contra hp
      exact hv ⟨hr, by simpa using hp⟩

/-- `HALL` stops in a fault only for a seeded decoder whose previous reading is none of 1 to 6. -/
theorem hallUpdate_eq_fault {r : HallReading} {f : Fault} (h : hallUpdate r s = .fault f) :
    s.htc.seeded = true ∧ validReading s.htc.prev = false := by
  unfold hallUpdate at h
  split at h
  · cases h
  · rename_i hs
    split at h
    · rename_i hv; exact ⟨by simpa using hs, hv.2⟩
    · cases h

/-! ### The tick -/

/-- The state a tick works on: line 2 of R153. -/
abbrev State.ticked (s : State) : State :=
  { s.perform with vwe := { s.vwe with ticks := wrappingSucc s.vwe.ticks } }

/-- Everything lines 2 to 11 of `TICK` can answer next. -/
theorem tickUpdate_eq_next (h : tickUpdate s = .next t) :
    s.vwe.err ≠ .hard
    ∧ ((s.vwe.cnt = countSentinel ∧ t = faultyTick s.ticked)
      ∨ (s.vwe.cnt ≠ countSentinel ∧ s.vwe.cur < s.par.windowLength ∧ t = normalTick s.ticked)) := by
  unfold tickUpdate at h
  split at h
  · cases h
  · rename_i he
    refine ⟨he, ?_⟩
    simp only at h
    split at h
    · rename_i hc; cases h; exact .inl ⟨hc, rfl⟩
    · rename_i hc
      split at h
      · rename_i hw; cases h; exact .inr ⟨hc, hw, rfl⟩
      · cases h

/-- A tick stops in a fault only when `err` is Hard or the cursor is beyond the window. -/
theorem tickUpdate_eq_fault {f : Fault} (h : tickUpdate s = .fault f) :
    s.vwe.err = .hard ∨ s.par.windowLength ≤ s.vwe.cur := by
  unfold tickUpdate at h
  split at h
  · exact .inl (by assumption)
  · simp only at h
    split at h
    · cases h
    · split at h
      · cases h
      · rename_i hw; exact .inr (Nat.le_of_not_lt hw)

/-- A faulty tick goes Soft from None and Hard otherwise. -/
theorem faultyTick_cases (s : State) :
    (s.vwe.err = .none ∧ faultyTick s = { s with vwe := { s.vwe with
        err := .soft, softErrCnt := saturatingSucc s.vwe.softErrCnt, cnt := 0,
        velOut := scaledVelocity s.par s.vwe.vsum } })
    ∨ (s.vwe.err ≠ .none ∧ faultyTick s = hardTick s .consecutiveTickFaults) := by
  unfold faultyTick
  split
  · exact .inl ⟨by assumption, rfl⟩
  · exact .inr ⟨by assumption, rfl⟩

/-- A normal tick slides the window, and goes Hard exactly when the new sum is beyond the bound. -/
theorem normalTick_cases (s : State) :
    (beyondBound s.par (slideWindow s).vwe.vsum = true ∧ normalTick s = hardTick (slideWindow s) .velocityBound)
    ∨ (beyondBound s.par (slideWindow s).vwe.vsum = false ∧ normalTick s = { slideWindow s with
        vwe := { (slideWindow s).vwe with
          cnt := 0, velOut := scaledVelocity s.par (slideWindow s).vwe.vsum } }) := by
  cases hb : beyondBound s.par (slideWindow s).vwe.vsum
  · refine .inr ⟨rfl, ?_⟩
    have hb' : beyondBound (slideWindow s).par (slideWindow s).vwe.vsum = false := hb
    simp only [normalTick, hb', Bool.false_eq_true, if_false]
    rfl
  · refine .inl ⟨rfl, ?_⟩
    have hb' : beyondBound (slideWindow s).par (slideWindow s).vwe.vsum = true := hb
    simp only [normalTick, hb', if_true]

/-! ### The controller -/

/-- `SETPT` stores the target or enters the Faulted state. -/
theorem setpointUpdate_cases (v : Word) (s : State) :
    ((wordValue v).natAbs ≤ s.par.setpointMax
      ∧ setpointUpdate v s = { s.perform with pid := { s.pid with setpoint := v } })
    ∨ (s.par.setpointMax < (wordValue v).natAbs
      ∧ setpointUpdate v s = s.perform.enterFault .setpointRange) := by
  unfold setpointUpdate
  split
  · exact .inr ⟨by assumption, rfl⟩
  · exact .inl ⟨by omega, rfl⟩

/-- `clamp` answers within its bounds. -/
theorem clamp_mem {v lo hi : Int} (h : lo ≤ hi) : lo ≤ clamp v lo hi ∧ clamp v lo hi ≤ hi := by
  unfold clamp
  split
  · exact ⟨le_refl _, h⟩
  · split <;> omega

/-- A value within the bounds is kept. -/
theorem clamp_of_mem {v lo hi : Int} (h1 : lo ≤ v) (h2 : v ≤ hi) : clamp v lo hi = v := by
  unfold clamp
  rw [if_neg (by omega), if_neg (by omega)]

/-- A 32-bit register gives back a number that fits it. -/
theorem wordValue_toWord {v : Int} (h1 : -2 ^ 31 ≤ v) (h2 : v < 2 ^ 31) : wordValue (toWord v) = v := by
  unfold wordValue toWord
  rw [BitVec.toInt_ofInt, Int.bmod_eq_of_le] <;> norm_num <;> omega

/-- A 64-bit register gives back a number that fits it. -/
theorem dwordValue_toDWord {v : Int} (h1 : -2 ^ 63 ≤ v) (h2 : v < 2 ^ 63) : dwordValue (toDWord v) = v := by
  unfold dwordValue toDWord
  rw [BitVec.toInt_ofInt, Int.bmod_eq_of_le] <;> norm_num <;> omega

/-- The PID step changes the PID unit and `op_ok` and nothing else. -/
theorem pidUpdate_frame (s : State) (current : Int) :
    ∃ pid, pidUpdate s current = { s.perform with pid := pid } ∧ pid.setpoint = s.pid.setpoint :=
  ⟨_, rfl, rfl⟩

/-! ### The framer -/

/-- `PPUSH` stages the byte or is refused, and changes only the staging file and `op_ok`. -/
theorem stageByte_cases (b : Byte) (s : State) :
    (∃ h : s.tx.pn.val < 8, stageByte b s = { s.perform with tx := { s.tx with
        p := s.tx.p.set s.tx.pn.val b, pn := ⟨s.tx.pn.val + 1, by omega⟩ } })
    ∨ (s.tx.pn.val = 8 ∧ stageByte b s = s.refuse) := by
  unfold stageByte
  split
  · exact .inl ⟨by assumption, rfl⟩
  · exact .inr ⟨by omega, rfl⟩

/-- One received byte in an active state works on the receive half alone; in IDLE and DONE it is refused. -/
theorem feedByte_eq_next {b : Byte} (h : feedByte b s = .next t) :
    ((s.rx.state = .idle ∨ s.rx.state = .done) ∧ t = s.refuse)
    ∨ (s.rx.state = .hunt ∧ t = { s.perform with rx := s.rx.huntStep s.par b })
    ∨ (s.rx.state = .id ∧ t = { s.perform with rx := s.rx.idStep s.par b })
    ∨ (s.rx.state = .lenLo ∧ t = { s.perform with rx := s.rx.lenLoStep s.par b })
    ∨ (s.rx.state = .lenHi ∧ t = { s.perform with rx := s.rx.lenHiStep s.par b })
    ∨ (s.rx.state = .instr ∧ t = { s.perform with rx := s.rx.instrStep s.par b })
    ∨ (s.rx.state = .params ∧ s.rx.rem ≠ 0 ∧ t = { s.perform with rx := s.rx.paramsStep s.par b })
    ∨ (s.rx.state = .crcLo ∧ t = { s.perform with rx := s.rx.crcLoStep b })
    ∨ (s.rx.state = .crcHi ∧ t = { s.perform with rx := s.rx.crcHiStep s.par b }) := by
  unfold feedByte at h
  cases hs : s.rx.state <;> simp only [hs] at h
  case params =>
    split at h
    · cases h
    · rename_i hr; cases h; simp [hr]
  all_goals cases h; simp

/-- One received byte leaves everything but the receive half and `op_ok` alone. -/
theorem feedByte_frame {b : Byte} (h : feedByte b s = .next t) :
    t.cfg = s.cfg ∧ t.port = s.port ∧ t.htc = s.htc ∧ t.vwe = s.vwe ∧ t.pid = s.pid ∧ t.tx = s.tx
      ∧ t.status.fault = s.status.fault ∧ t.status.cause = s.status.cause := by
  rcases feedByte_eq_next h with ⟨-, rfl⟩ | ⟨-, rfl⟩ | ⟨-, rfl⟩ | ⟨-, rfl⟩ | ⟨-, rfl⟩ | ⟨-, rfl⟩ | ⟨-, -, rfl⟩
    | ⟨-, rfl⟩ | ⟨-, rfl⟩ <;> simp

/-- A received byte stops in a fault only in PARAMS with nothing left to come. -/
theorem feedByte_eq_fault {b : Byte} {f : Fault} (h : feedByte b s = .fault f) :
    s.rx.state = .params ∧ s.rx.rem = 0 := by
  unfold feedByte at h
  cases hs : s.rx.state <;> simp only [hs] at h
  case params =>
    split at h
    · exact ⟨rfl, by assumption⟩
    · cases h
  all_goals cases h

/-- The end of a reception by timeout, or its refusal. -/
theorem receiveTimeout_cases (s : State) :
    ((s.rx.state = .idle ∨ s.rx.state = .done) ∧ receiveTimeout s = s.refuse)
    ∨ (s.rx.state ≠ .idle ∧ s.rx.state ≠ .done
      ∧ receiveTimeout s = { s.perform with rx := s.rx.fail .timeout }) := by
  unfold receiveTimeout
  split
  · exact .inl ⟨by assumption, rfl⟩
  · rename_i h
    exact .inr ⟨fun e => h (.inl e), fun e => h (.inr e), rfl⟩

@[simp] theorem feedBytes_nil : feedBytes [] s = .next s := rfl

@[simp] theorem feedBytes_cons (b : Byte) (bs : List Byte) :
    feedBytes (b :: bs) s = andThen (feedByte b s) (feedBytes bs) := rfl

@[simp] theorem stageBytes_nil : stageBytes [] s = s := rfl

@[simp] theorem stageBytes_cons (b : Byte) (bs : List Byte) : stageBytes (b :: bs) s = stageBytes bs (stageByte b s) :=
  rfl

@[simp] theorem receiveBytes_nil : receiveBytes [] s = .next s := rfl

@[simp] theorem receiveBytes_cons (b : Byte) (bs : List Byte) :
    receiveBytes (b :: bs) s = andThen (execRxbyte b s) (receiveBytes bs) := rfl

/-- Received bytes are one `RXBYTE` each. -/
theorem receiveBytes_eq_execSeq (bs : List Byte) (s : State) : receiveBytes bs s = execSeq (rxFeedOps bs) s := by
  induction bs generalizing s with
  | nil => rfl
  | cons b bs ih =>
    show andThen (execRxbyte b s) (receiveBytes bs) = andThen (execRxbyte b s) (execSeq (rxFeedOps bs))
    rw [funext ih]

/-- Received bytes leave everything but the receive half and `op_ok` alone. -/
theorem receiveBytes_frame {bs : List Byte} (h : receiveBytes bs s = .next t) :
    t.cfg = s.cfg ∧ t.port = s.port ∧ t.htc = s.htc ∧ t.vwe = s.vwe ∧ t.pid = s.pid ∧ t.tx = s.tx
      ∧ t.status.fault = s.status.fault ∧ t.status.cause = s.status.cause := by
  induction bs generalizing s with
  | nil => cases h; simp
  | cons b bs ih =>
    rw [receiveBytes_cons, andThen_eq_next] at h
    obtain ⟨u, hu, ht⟩ := h
    obtain ⟨h1, h2, h3, h4, h5, h6, h7, h8⟩ := ih ht
    have g : u.cfg = s.cfg ∧ u.port = s.port ∧ u.htc = s.htc ∧ u.vwe = s.vwe ∧ u.pid = s.pid ∧ u.tx = s.tx
        ∧ u.status.fault = s.status.fault ∧ u.status.cause = s.status.cause := by
      rcases gated_eq_next.1 hu with ⟨-, rfl⟩ | ⟨-, hf⟩
      · simp
      · exact feedByte_frame hf
    obtain ⟨g1, g2, g3, g4, g5, g6, g7, g8⟩ := g
    exact ⟨h1.trans g1, h2.trans g2, h3.trans g3, h4.trans g4, h5.trans g5, h6.trans g6, h7.trans g7, h8.trans g8⟩

/-- Staging changes only the staging file and `op_ok`. -/
theorem stageByte_frame (b : Byte) (s : State) :
    (stageByte b s).cfg = s.cfg ∧ (stageByte b s).port = s.port ∧ (stageByte b s).htc = s.htc
      ∧ (stageByte b s).vwe = s.vwe ∧ (stageByte b s).pid = s.pid ∧ (stageByte b s).rx = s.rx
      ∧ (stageByte b s).status.fault = s.status.fault ∧ (stageByte b s).status.cause = s.status.cause
      ∧ (stageByte b s).tx.buf = s.tx.buf ∧ (stageByte b s).tx.len = s.tx.len
      ∧ (stageByte b s).tx.valid = s.tx.valid := by
  rcases stageByte_cases b s with ⟨_, e⟩ | ⟨-, e⟩ <;> simp [e]

/-- `SEND` changes only the framer and `op_ok`. -/
theorem stageBytes_frame (params : List Byte) (s : State) :
    (stageBytes params s).cfg = s.cfg ∧ (stageBytes params s).port = s.port ∧ (stageBytes params s).htc = s.htc
      ∧ (stageBytes params s).vwe = s.vwe ∧ (stageBytes params s).pid = s.pid ∧ (stageBytes params s).rx = s.rx
      ∧ (stageBytes params s).status.fault = s.status.fault
      ∧ (stageBytes params s).status.cause = s.status.cause
      ∧ (stageBytes params s).tx.buf = s.tx.buf ∧ (stageBytes params s).tx.len = s.tx.len
      ∧ (stageBytes params s).tx.valid = s.tx.valid := by
  induction params generalizing s with
  | nil => simp
  | cons b bs ih =>
    have hb := stageByte_frame b s
    have hs := ih (stageByte b s)
    rw [stageBytes_cons]
    refine ⟨hs.1.trans hb.1, hs.2.1.trans hb.2.1, hs.2.2.1.trans hb.2.2.1, ?_⟩
    obtain ⟨-, -, -, h4, h5, h6, h7, h8, h9, h10, h11⟩ := hs
    obtain ⟨-, -, -, g4, g5, g6, g7, g8, g9, g10, g11⟩ := hb
    exact ⟨h4.trans g4, h5.trans g5, h6.trans g6, h7.trans g7, h8.trans g8, h9.trans g9, h10.trans g10,
      h11.trans g11⟩

/-- What `SEND` leaves besides the framer: a fault can neither be raised nor lifted by it. -/
theorem sendPacket_frame (id instr : Byte) (params : List Byte) (s : State) :
    let t := sendPacket id instr params s
    t.cfg = s.cfg ∧ t.port = s.port ∧ t.htc = s.htc ∧ t.vwe = s.vwe ∧ t.pid = s.pid
      ∧ t.status.fault = s.status.fault ∧ t.status.cause = s.status.cause ∧ t.status.opOk = true := by
  obtain ⟨h1, h2, h3, h4, h5, -, h7, h8, -⟩ := stageBytes_frame params (clearStaging s)
  simp only [sendPacket]
  split <;> exact ⟨h1, h2, h3, h4, h5, h7, h8, rfl⟩

/-- Received bytes leave everything but the receive half and `op_ok` alone. -/
theorem feedBytes_frame {bs : List Byte} (h : feedBytes bs s = .next t) :
    t.cfg = s.cfg ∧ t.port = s.port ∧ t.htc = s.htc ∧ t.vwe = s.vwe ∧ t.pid = s.pid ∧ t.tx = s.tx
      ∧ t.status.fault = s.status.fault ∧ t.status.cause = s.status.cause := by
  induction bs generalizing s with
  | nil => cases h; simp
  | cons b bs ih =>
    obtain ⟨u, hu, ht⟩ := andThen_eq_next.1 h
    obtain ⟨g1, g2, g3, g4, g5, g6, g7, g8⟩ := feedByte_frame hu
    obtain ⟨h1, h2, h3, h4, h5, h6, h7, h8⟩ := ih ht
    exact ⟨h1.trans g1, h2.trans g2, h3.trans g3, h4.trans g4, h5.trans g5, h6.trans g6, h7.trans g7,
      h8.trans g8⟩

end Sys2Proof.Machine
end

