-- ==== Sys2Proof/Laws/PerInstr.lean ====
section
/-! SUPPORT. A statement about every instruction as syntax: its encoding lies in its row of spec/opcode_table.json, the
command word by match and mask, the packet by its byte 7 (spec/30_encoding.md R93, R94, R106). -/

namespace Sys2Proof.Laws.EncodedRow

open Sys2Proof.Machine

/-- The row's match: the operation code for a command word, the instruction byte for a packet. -/
def rowMatch : Instr → Nat
  | .nop => 0x000000000
  | .hall _ => 0x100000000
  | .tick => 0x200000000
  | .setpt _ => 0x300000000
  | .pidstep _ => 0x400000000
  | .ctick => 0x500000000
  | .ppush _ => 0x600000000
  | .pclr => 0x700000000
  | .build _ _ => 0x800000000
  | .rxarm _ => 0x900000000
  | .rxbyte _ => 0xA00000000
  | .rxtmo => 0xB00000000
  | .reservedC => 0xC00000000
  | .reservedD => 0xD00000000
  | .reservedE => 0xE00000000
  | .reset => 0xF00000000
  | .pktWrite _ _ => 0x03
  | .pktRegWrite _ _ => 0x04
  | .pktAction _ _ => 0x05
  | .pktFactoryReset _ _ => 0x06
  | .pktStatus _ _ _ => 0x55

/-- A request lies in the row with a match. -/
def inRow (r : Request) (m : Nat) : Prop :=
  match r with
  | .word w => w &&& 0xF00000000 = BitVec.ofNat 36 m
  | .packet bytes => bytes[7]? = some (BitVec.ofNat 8 m)

/-- The instruction's encoding lies in its row. -/
def Statement (i : Instr) : Prop := inRow (encode i) (rowMatch i)

/-- A command word with any data lies in the row of its operation code: the mask drops the data. -/
theorem word_inRow (op : BitVec 4) (d : Word) (m : Nat) (h : commandWord op 0 = BitVec.ofNat 36 m) :
    inRow (.word (commandWord op d)) m := by
  have mask : (0xF00000000 : CommandWord) = (0xF#4 ++ 0#32) := by decide
  have all : op &&& 0xF#4 = op := BitVec.and_allOnes (x := op)
  show commandWord op d &&& 0xF00000000 = _
  rw [← h, mask, commandWord, commandWord, BitVec.and_append]
  simp [all]

theorem nop : Statement .nop := word_inRow 0x0 _ 0x000000000 rfl
theorem hall (r : HallReading) : Statement (.hall r) := word_inRow 0x1 _ 0x100000000 rfl
theorem tick : Statement .tick := word_inRow 0x2 _ 0x200000000 rfl
theorem setpt (v : Word) : Statement (.setpt v) := word_inRow 0x3 _ 0x300000000 rfl
theorem pidstep (current : Word) : Statement (.pidstep current) := word_inRow 0x4 _ 0x400000000 rfl
theorem ctick : Statement .ctick := word_inRow 0x5 _ 0x500000000 rfl
theorem ppush (b : Byte) : Statement (.ppush b) := word_inRow 0x6 _ 0x600000000 rfl
theorem pclr : Statement .pclr := word_inRow 0x7 _ 0x700000000 rfl
theorem build (id instr : Byte) : Statement (.build id instr) := word_inRow 0x8 _ 0x800000000 rfl
theorem rxarm (id : Byte) : Statement (.rxarm id) := word_inRow 0x9 _ 0x900000000 rfl
theorem rxbyte (b : Byte) : Statement (.rxbyte b) := word_inRow 0xA _ 0xA00000000 rfl
theorem rxtmo : Statement .rxtmo := word_inRow 0xB _ 0xB00000000 rfl
theorem reservedC : Statement .reservedC := word_inRow 0xC _ 0xC00000000 rfl
theorem reservedD : Statement .reservedD := word_inRow 0xD _ 0xD00000000 rfl
theorem reservedE : Statement .reservedE := word_inRow 0xE _ 0xE00000000 rfl
theorem reset : Statement .reset := word_inRow 0xF _ 0xF00000000 rfl
theorem pktWrite (id : Byte) (params : List Byte) : Statement (.pktWrite id params) := rfl
theorem pktRegWrite (id : Byte) (params : List Byte) : Statement (.pktRegWrite id params) := rfl
theorem pktAction (id : Byte) (params : List Byte) : Statement (.pktAction id params) := rfl
theorem pktFactoryReset (id : Byte) (params : List Byte) : Statement (.pktFactoryReset id params) := rfl
theorem pktStatus (id : Byte) (params : List Byte) (crc : Half) : Statement (.pktStatus id params crc) := rfl

end Sys2Proof.Laws.EncodedRow
end

