-- ==== Sys2Proof/Tests/Slice0.lean ====
section
/-! SUPPORT. Small tests: ill-formed terms the checks refuse, words written out from the encoding tables, one step of
each instruction with the values of spec/95_test_vectors.md, and for each statement with hypotheses a concrete state
and operands that meet them. -/

namespace Sys2Proof.Tests

-- One theorem after another: side by side, their kernel evaluations take a thread and its stack each.
set_option Elab.async false

open Sys2Proof.Machine

/-! ### Helpers -/

/-- The block after reset in `CFG-A` (00_scope.md R13). -/
def blockA : State := State.resetWith Config.cfgA

/-- The block after reset in `CFG-S`: a window of 4 slots, a bound of 8. -/
def blockS : State := State.resetWith Config.cfgS

/-- The result is a next state with a property. -/
def answers (r : Result) (p : State → Bool) : Bool :=
  match r with
  | .next t => p t
  | .fault _ => false
  | .refused _ => false

theorem answers_spec {r : Result} {p : State → Bool} (h : answers r p = true) : ∃ t, r = .next t ∧ p t = true := by
  cases r with
  | next t => exact ⟨t, rfl, h⟩
  | fault f => cases h
  | refused f => cases h

/-- The result is a next state. -/
def completes (r : Result) : Bool := answers r (fun _ => true)

theorem completes_spec {r : Result} (h : completes r = true) : ∃ t, r = .next t :=
  (answers_spec h).imp fun _ ht => ht.1

/-- A block with its per-tick count, error latch, window sum, cursor and window set. -/
def withWindow (s : State) (cnt : Byte) (err : ErrLevel) (vsum : Word) (cur : Nat) (buf : Memory) : State :=
  { s with vwe := { s.vwe with cnt := cnt, err := err, vsum := vsum, cur := cur, buf := buf } }

/-- A block with its integral set. -/
def withIntegral (s : State) (integral : Word) : State := { s with pid := { s.pid with integral := integral } }

/-- A seeded block with a previous reading. -/
def seededAt (s : State) (p : HallReading) : State := { s with htc := { s.htc with seeded := true, prev := p } }

/-- A block in the Faulted state. -/
def faulted (s : State) : State := s.enterFault .setpointRange

/-- A block with its receive parser in a state, after a header and the given fields. -/
def receiving (s : State) (state : RxState) (len : Half) (rem : Fin 11) (win : Fin 4) (rn : Fin 9) : State :=
  { s with rx := { s.rx with state := state, expect := 1, len := len, rem := rem, win := win, rn := rn } }

/-- A block hunting for the header. -/
def hunting (s : State) (hdr : Fin 4) : State := { s with rx := { s.rx with state := .hunt, expect := 1, hdr := hdr } }

/-- A block with parameters staged. -/
def staging (s : State) (p : Vector Byte 8) (pn : Fin 9) : State := { s with tx := { s.tx with p := p, pn := pn } }

/-! ### Well-formedness smoke tests (00_scope.md R12, 43_packet_framer.md R212) -/

/-- The parameters of `CFG-A`, to be spoilt. -/
def good : Params := Config.cfgA.val

theorem test_wf_cfgA : good.ok = true := by decide
theorem test_wf_window_empty : { good with windowLength := 0 }.ok = false := by decide
theorem test_wf_max_per_tick_zero : { good with maxPerTickCount := 0 }.ok = false := by decide
theorem test_wf_max_per_tick_beyond_count : { good with maxPerTickCount := 128 }.ok = false := by decide
theorem test_wf_tick_rate_zero : { good with tickHz := 0 }.ok = false := by decide
theorem test_wf_scaled_sum_too_wide : { good with windowLength := 16910 }.ok = false := by decide
theorem test_wf_hall_two_cycles : { good with hallFwd := #v[2, 3, 1, 5, 6, 4] }.ok = false := by decide
theorem test_wf_hall_not_valid : { good with hallFwd := #v[3, 6, 2, 5, 0, 4] }.ok = false := by decide
theorem test_wf_hall_repeated : { good with hallFwd := #v[3, 6, 2, 5, 1, 5] }.ok = false := by decide
theorem test_wf_integral_bound : { good with iBound := 2 ^ 31 }.ok = false := by decide
theorem test_wf_throttle_bound : { good with throttleMax := 2 ^ 31 }.ok = false := by decide
theorem test_wf_setpoint_bound : { good with setpointMax := 2 ^ 31 }.ok = false := by decide
theorem test_wf_shift_bound : { good with scaleShift := 64 }.ok = false := by decide
theorem test_wf_gain_range : ({ good with kp := 2 ^ 31 }.okRanges, { good with ki := -2 ^ 31 - 1 }.okRanges,
    { good with kd := 2 ^ 31 }.okRanges, { good with kf := 2 ^ 31 }.okRanges) = (false, false, false, false) := by decide
theorem test_wf_sum_too_wide : { good with kp := 2 ^ 31 - 1, kd := 2 ^ 31 - 1 }.ok = false := by decide
theorem test_wf_nine_parameters : ([Instr.pktWrite 1 (List.replicate 9 0), .pktRegWrite 1 (List.replicate 9 0),
    .pktAction 1 (List.replicate 9 0), .pktFactoryReset 1 (List.replicate 9 0),
    .pktStatus 1 (List.replicate 9 0) 0].map Instr.wellFormed) = [false, false, false, false, false] := by decide
theorem test_wf_memory_unsorted : ¬ Memory.wf [(2, 1), (1, 1)] := by decide
theorem test_wf_memory_blank_listed : ¬ Memory.wf [(1, 0)] := by decide

/-! ### Decoding words written out from 30_encoding.md R91 to R94 and R103 to R107 -/

/-- V-E1 to V-E8. -/
theorem test_decode_motor_words :
    [0x000000000#36, 0x100000005, 0x1FFFFFFFD, 0x200000000, 0x30000000C, 0x3FFFFFED4, 0x480000000, 0x500000000].map
      decodeWord
    = [.nop, .hall 5, .hall 5, .tick, .setpt 12, .setpt 0xFFFFFED4, .pidstep 0x80000000, .ctick] := by decide

/-- V-E9 to V-E15. -/
theorem test_decode_framer_words :
    [0x600000074#36, 0x700000000, 0x800000301, 0x8000005FE, 0x900000001, 0xA000000FD, 0xB00000000].map decodeWord
    = [.ppush 0x74, .pclr, .build 0x01 0x03, .build 0xFE 0x05, .rxarm 0x01, .rxbyte 0xFD, .rxtmo] := by decide

/-- V-E16, V-E17. -/
theorem test_decode_system_words :
    [0xC00000000#36, 0xD12345678, 0xE00000000, 0xF00000000].map decodeWord
    = [.reservedC, .reservedD, .reservedE, .reset] := by decide

/-- R92: -300 is the value of its word. -/
theorem test_decode_word_operand_is_signed : wordValue 0xFFFFFED4 = -300 := by decide

/-- V-B1's packet before its CRC field: the four sent instructions differ in byte 7 alone. -/
theorem test_decode_sent_packets :
    [0x03#8, 0x04, 0x05, 0x06].map (fun op =>
      (decodePacket [0xFF, 0xFF, 0xFD, 0x00, 0x01, 0x05, 0x00, op, 0x41, 0x00]).toOption)
    = [some (.pktWrite 1 [0x41, 0x00]), some (.pktRegWrite 1 [0x41, 0x00]), some (.pktAction 1 [0x41, 0x00]),
       some (.pktFactoryReset 1 [0x41, 0x00])] := by decide

/-- V-R1's response, and V-R2's stuffed parameters `00 FF FF FD (FD) 07`. -/
theorem test_decode_status_packets :
    (decodePacket [0xFF, 0xFF, 0xFD, 0x00, 0x01, 0x04, 0x00, 0x55, 0x00, 0x0A, 0x4C]).toOption
      = some (.pktStatus 1 [0x00] 0x4C0A)
    ∧ (decodePacket [0xFF, 0xFF, 0xFD, 0x00, 0x01, 0x09, 0x00, 0x55, 0x00, 0xFF, 0xFF, 0xFD, 0xFD, 0x07, 0xAE,
        0x09]).toOption = some (.pktStatus 1 [0x00, 0xFF, 0xFF, 0xFD, 0x07] 0x09AE) := by decide

/-- Each reason a byte string is no packet (R103, R106, R107). -/
theorem test_decode_refuses_by_name :
    (decodePacket [0xFF, 0xFF, 0xFD] = .error .truncated)
    ∧ decodePacket [0xFF, 0xFF, 0xFD, 0x01, 1, 3, 0, 3] = .error .badHeader
    ∧ decodePacket [0xFF, 0xFF, 0xFD, 0x00, 1, 2, 0, 3] = .error .badLength
    ∧ decodePacket [0xFF, 0xFF, 0xFD, 0x00, 1, 14, 0, 3] = .error .badLength
    ∧ decodePacket [0xFF, 0xFF, 0xFD, 0x00, 1, 4, 0, 3] = .error .badLength
    ∧ decodePacket [0xFF, 0xFF, 0xFD, 0x00, 1, 3, 0, 0x02] = .error .unknownInstruction
    ∧ decodePacket [0xFF, 0xFF, 0xFD, 0x00, 1, 7, 0, 3, 0xFF, 0xFF, 0xFD, 0x01] = .error .badStuffing
    ∧ decodePacket [0xFF, 0xFF, 0xFD, 0x00, 1, 12, 0, 3, 1, 2, 3, 4, 5, 6, 7, 8, 9] = .error .paramOverflow := by
  decide

/-- Rows of spec/opcode_table.json: command words, and the five packet instruction bytes. -/
theorem test_decode_table_rows :
    decodeTableWord 40 0xF00000000 = some .reset ∧ decodeTableWord 40 0x600000000 = some (.ppush 0)
    ∧ decodeTableWord 8 0x03 = some (.pktWrite 0 []) ∧ decodeTableWord 8 0x04 = some (.pktRegWrite 0 [])
    ∧ decodeTableWord 8 0x05 = some (.pktAction 0 []) ∧ decodeTableWord 8 0x06 = some (.pktFactoryReset 0 [])
    ∧ decodeTableWord 8 0x55 = some (.pktStatus 0 [] 0) ∧ decodeTableWord 8 0x07 = none := by decide

/-! ### One step of each instruction -/

/-- V-S1: `NOP` brings `op_ok` back in the Faulted state. -/
theorem test_nop_in_faulted_state : answers (exec .nop (faulted blockA).refuse) (fun t =>
    decide (t.status = { fault := true, cause := .setpointRange, opOk := true })) = true := by decide +kernel

/-- V-S2: `RESET` leaves the Faulted state. -/
theorem test_reset_from_faulted_state : answers (exec .reset (faulted (seededAt blockA 3))) (fun t =>
    decide (t = blockA)) = true := by decide +kernel

/-- V-S3: reserved codes are refused, whatever the state. -/
theorem test_reserved_refused : [Instr.reservedC, .reservedD, .reservedE].all (fun i =>
    answers (exec i blockA) (fun t => decide (t = blockA.refuse))
      && answers (exec i (faulted blockA)) (fun t => decide (t = (faulted blockA).refuse))) = true := by decide +kernel

/-- V-H1 step 8 and V-H3 step 6: a forward step, and an illegal jump that the previous reading follows. -/
theorem test_hall_forward_and_jump :
    answers (exec (.hall 3) (seededAt blockA 1)) (fun t =>
      decide (t.htc = { seeded := true, prev := 3, event := .forward, eventValid := true }) && t.vwe.cnt == 1) = true
    ∧ answers (exec (.hall 2) (seededAt blockA 4)) (fun t =>
      decide (t.htc = { seeded := true, prev := 2, event := .error, eventValid := true })
        && t.vwe.cnt == 0x80) = true := by decide +kernel

/-- V-H4: an invalid first reading does not seed; a valid one does and emits nothing. -/
theorem test_hall_seeding :
    answers (exec (.hall 7) blockA) (fun t =>
      decide (t.htc = { seeded := false, prev := 0, event := .error, eventValid := true }) && t.vwe.cnt == 0x80) = true
    ∧ answers (exec (.hall 2) blockA) (fun t =>
      decide (t.htc = { seeded := true, prev := 2, event := .noTransition, eventValid := false })
        && t.vwe.cnt == 0) = true := by decide +kernel

/-- V-W1 tick 5: the window drops its oldest count. -/
theorem test_tick_drops_oldest_count :
    answers (exec .tick (withWindow blockS 2 .none 2 0 [(0, 1), (1, 2), (3, 0xFF)])) (fun t =>
      t.vwe.vsum == 3 && t.vwe.cur == 1 && t.vwe.velOut == 750
        && decide (t.vwe.buf = [(0, 2), (1, 2), (3, 0xFF)])) = true := by decide +kernel

/-- V-W4 tick 3: the slot is written and the cursor moved before the bound check fails. -/
theorem test_tick_bound_violation :
    answers (exec .tick (withWindow blockS 3 .none 6 2 [(0, 3), (1, 3)])) (fun t =>
      decide (t.vwe.buf = [(0, 3), (1, 3), (2, 3)]) && t.vwe.cur == 3 && t.vwe.vsum == 9 && t.vwe.velOut == 0
        && decide (t.vwe.err = .hard)
        && decide (t.status = { fault := true, cause := .velocityBound, opOk := true })) = true := by decide +kernel

/-- V-P1's row 5: a negative sum is floored. -/
theorem test_pidstep_floors : answers (exec (.pidstep 120)
      { blockA with pid := { setpoint := 100, integral := 180, lastError := 0, pidRaw := 18, pidOut := 18 } }) (fun t =>
    decide (t.pid = { setpoint := 100, integral := 160, lastError := -20, pidRaw := -3, pidOut := -3 })) = true := by
  decide +kernel

/-- R181's worked example: 20000 is stored, 20001 faults with cause 3. -/
theorem test_setpt_limit :
    answers (exec (.setpt 20000) blockA) (fun t => t.pid.setpoint == 20000 && !t.status.fault) = true
    ∧ answers (exec (.setpt 20001) blockA) (fun t =>
      t.pid.setpoint == 0 && t.status.fault && t.status.cause.code == 3) = true := by decide +kernel

/-- P1's first `CTICK`. -/
theorem test_ctick_closed_loop : answers (exec .ctick
      { withWindow blockA 3 .none 0 0 [] with pid := { blockA.pid with setpoint := 12 } }) (fun t =>
    t.vwe.velOut == 6 && t.pid.integral == 6 && t.pid.lastError == 6 && t.pid.pidRaw == 9 && t.pid.pidOut == 9
      && t.vwe.ticks == 1) = true := by decide +kernel

/-- P2's operation 10: the second faulty tick faults and the PID step does not run. -/
theorem test_ctick_second_faulty_tick : answers (exec .ctick
      { withWindow blockA 0x80 .soft (-2) 1 [(0, 0xFE)] with
        pid := { setpoint := -6, integral := -4, lastError := -2, pidRaw := -3, pidOut := -3 } }) (fun t =>
    decide (t.pid = { setpoint := -6, integral := -4, lastError := -2, pidRaw := 0, pidOut := 0 })
      && decide (t.status = { fault := true, cause := .consecutiveTickFaults, opOk := true })
      && decide (t.vwe.err = .hard) && t.vwe.velOut == 0 && t.vwe.cnt == 0) = true := by decide +kernel

/-- R208: the eighth byte is staged, a ninth is refused. -/
theorem test_ppush_limit :
    answers (exec (.ppush 0x74) (staging blockA (.replicate 8 1) 7)) (fun t =>
      decide (t.tx.p.toList = [1, 1, 1, 1, 1, 1, 1, 0x74]) && t.tx.pn == 8 && t.status.opOk) = true
    ∧ answers (exec (.ppush 0x74) (staging blockA (.replicate 8 1) 8)) (fun t =>
      decide (t.tx.p.toList = List.replicate 8 1) && t.tx.pn == 8 && !t.status.opOk) = true := by decide +kernel

/-- R209. -/
theorem test_pclr_keeps_bytes : answers (exec .pclr (staging blockA (.replicate 8 1) 5)) (fun t =>
    t.tx.pn == 0 && decide (t.tx.p.toList = List.replicate 8 1)) = true := by decide +kernel

/-- R210's worked example, with the CRC of profile CCITT. -/
theorem test_build_goal_position : answers (exec (.build 0x01 0x03)
      (staging blockA #v[0x74, 0x00, 0x00, 0x02, 0x00, 0x00, 0x00, 0x00] 6)) (fun t =>
    decide (t.txPacket = [0xFF, 0xFF, 0xFD, 0x00, 0x01, 0x09, 0x00, 0x03, 0x74, 0x00, 0x00, 0x02, 0x00, 0x00, 0x34,
      0xCA]) && t.tx.pn == 0 && t.tx.valid) = true := by decide +kernel

/-- R215's worked example. -/
theorem test_rxarm_hunts : answers (exec (.rxarm 1) blockA) (fun t =>
    decide (t.rx.state = .hunt) && t.rx.expect == 1 && !t.rx.done) = true := by decide +kernel

/-- V-R4d: a length of 260 is rejected at its high byte. -/
theorem test_rxbyte_long_length : answers (exec (.rxbyte 1) (receiving blockA .lenHi 4 0 0 0)) (fun t =>
    t.rx.len == 260 && decide (t.rx.state = .done) && decide (t.rx.cause = .badLength)) = true := by decide +kernel

/-- V-R2's fifth row: the stuffing byte is dropped. -/
theorem test_rxbyte_drops_stuffing : answers (exec (.rxbyte 0xFD) (receiving blockA .params 9 2 3 4)) (fun t =>
    t.rx.rem == 1 && t.rx.win == 0 && t.rx.rn == 4 && decide (t.rx.state = .params)) = true := by decide +kernel

/-- V-R4i: a timeout keeps the header fields. -/
theorem test_rxtmo_keeps_fields : answers (exec .rxtmo (receiving blockA .lenHi 4 0 0 0)) (fun t =>
    decide (t.rx.cause = .timeout) && t.rx.len == 4 && t.rx.done && !t.rx.ok) = true := by decide +kernel

/-- P3's packet from its instruction: framed, and the response awaited. -/
theorem test_pkt_write_goal_position :
    answers (exec (.pktWrite 1 [0x74, 0x00, 0x00, 0x08, 0x00, 0x00]) blockA) (fun t =>
      decide (t.txPacket = [0xFF, 0xFF, 0xFD, 0x00, 0x01, 0x09, 0x00, 0x03, 0x74, 0x00, 0x00, 0x08, 0x00, 0x00, 0xF5,
        0x0D]) && decide (t.rx.state = .hunt) && t.rx.expect == 1) = true := by decide +kernel

/-- R230 to R232, R228: the other three differ in byte 7; a broadcast awaits nothing. -/
theorem test_pkt_other_instructions :
    answers (exec (.pktRegWrite 1 [0x41]) blockA) (fun t => t.tx.buf.read 7 == 0x04 && t.tx.len == 11) = true
    ∧ answers (exec (.pktAction 0xFE []) blockA) (fun t =>
      t.tx.buf.read 7 == 0x05 && t.tx.len == 10 && decide (t.rx.state = .idle)) = true
    ∧ answers (exec (.pktFactoryReset 1 [0xFF]) blockA) (fun t => t.tx.buf.read 7 == 0x06 && t.tx.len == 11) = true := by
  decide +kernel

/-- V-R1 and V-R4h: the response is accepted, and rejected with one CRC bit wrong. -/
theorem test_pkt_status_response :
    answers (exec (.pktStatus 1 [0x00] 0x4C0A) (hunting blockA 0)) (fun t =>
      decide (t.rx.state = .done) && t.rx.ok && t.rx.rn == 1 && t.rx.id == 1 && t.rx.len == 4) = true
    ∧ answers (exec (.pktStatus 1 [0x00] 0x4D0A) (hunting blockA 0)) (fun t =>
      decide (t.rx.cause = .crcMismatch) && !t.rx.ok && t.rx.rn == 1) = true := by decide +kernel

/-- V-R4c, V-R4e, V-R4f and V-R4j presented as packets: each fails with its cause (93_implementation_defined.md U4, U10,
U11), and bytes that form no header are skipped (U12). -/
theorem test_malformed_packets_are_received :
    ([([0xFF, 0xFF, 0xFD, 0x00, 1, 0x0E, 0x00], .done, .badLength),
      ([0xFF, 0xFF, 0xFD, 0x00, 1, 0x04, 0x00, 0x07], .done, .instrMismatch),
      ([0xFF, 0xFF, 0xFD, 0x00, 1, 0x07, 0x00, 0x55, 0xFF, 0xFF, 0xFD, 0x01], .done, .badStuffing),
      ([0xFF, 0xFF, 0xFD, 0x00, 1, 0x0C, 0x00, 0x55, 1, 2, 3, 4, 5, 6, 7, 8, 9], .done, .paramOverflow),
      ([0x00, 0xFF, 0x12], .hunt, .none)] : List (List Byte × RxState × RxCause)).all (fun x =>
        answers (step { hunting blockA 0 with port := [.request (.packet x.1)] }) (fun t =>
          decide (t.rx.state = x.2.1) && decide (t.rx.cause = x.2.2) && t.status.opOk && decide (t.port = []))) = true := by
  decide +kernel

/-- 43_packet_framer.md R202: one byte into the CRC of each profile's generator, from V-R2's running values. -/
theorem test_crc_byte : crcByte 0x1021 0x0CB4 0x00 = 0x758C ∧ crcByte 0x8005 0xCF6A 0x00 = 0x68A2 := by decide

/-- V-W2: scaling rounds toward zero. -/
theorem test_scaling_truncates : truncDiv (-1 * 1000) 3 = -333 ∧ truncDiv (-2 * 1000) 3 = -666 := by decide

/-! ### Witnesses: for each statement with hypotheses, a state and operands that meet them, clause by clause -/

theorem test_witness_DecodeReadsBackEncode :
    (Instr.pktWrite 1 [0xFF, 0xFF, 0xFD, 0xFF, 0xFF, 0xFD, 1, 2]).wellFormed = true
      ∧ (Instr.pktStatus 0xFE [] 0).wellFormed = true := by decide

theorem test_witness_StepRunsDecodedInstruction :
    (({ blockA with port := [.request (.word 0x200000000)] } : State).port = .request (.word 0x200000000) :: []
      ∧ decode (.word 0x200000000) = .ok .tick)
    ∧ decodeTableWord 8 0x55 = some (.pktStatus 0 [] 0)
    ∧ (({ blockA with port := [.request (.packet [])] } : State).port = .request (.packet []) :: []
      ∧ decode (.packet []) = .error .truncated) := by decide +kernel

theorem test_witness_IdleStepChangesNothing : blockA.port = [] := rfl

theorem test_witness_ResetCausesHaveOneEffect :
    ({ blockA with port := [.externalReset, .externalReset] } : State).port = .externalReset :: [.externalReset] := rfl

theorem test_witness_CoincidentSensorEventGoesFirst : (seededAt blockA 1).port = [] ∧
    (∃ t, step ((seededAt blockA 1).presentTogether 3 .tick) = .next t)
    ∧ ∃ t, step ((seededAt blockA 1).presentTogether 0 .ctick) = .next t :=
  ⟨rfl, completes_spec (by decide +kernel), completes_spec (by decide +kernel)⟩

theorem test_witness_FaultedStateRefusesOperations :
    (faulted blockA).status.fault = true ∧ Instr.ctick ≠ .nop ∧ Instr.ctick ≠ .reset := by decide +kernel

/-- The four cases of a refusal, and a performed operation. -/
theorem test_witness_RefusalsAreExactlyTheListed :
    ∀ x ∈ [((0xC : Nat), blockA, false), (2, faulted blockA, false), (6, staging blockA (.replicate 8 1) 8, false),
        (0xA, blockA, false), (0xB, receiving blockA .done 0 0 0 0, false), (0xB, hunting blockA 0, true)],
      ∃ t, exec (decodeWord (commandWord (BitVec.ofNat 4 x.1) 0)) x.2.1 = .next t
        ∧ (t.status.opOk == x.2.2) = true := by
  intro x hx
  refine answers_spec ?_
  revert x hx
  decide +kernel

/-- The four ways into the Faulted state: two faulty ticks, the bound, each by `TICK` and `CTICK`, and `SETPT`. -/
theorem test_witness_FaultCausesAreAClosedList :
    ∀ x ∈ [(Instr.tick, withWindow blockA 0x80 .soft 0 0 []), (.ctick, withWindow blockA 0x80 .soft 0 0 []),
        (.tick, withWindow blockS 3 .none 6 2 [(0, 3), (1, 3)]),
        (.ctick, withWindow blockS 0xFD .none (-6) 2 [(0, 0xFD), (1, 0xFD)]),
        (.setpt 20001, blockA), (.setpt 0x80000000, blockA)],
      x.2.status.fault = false ∧ ∃ t, exec x.1 x.2 = .next t ∧ t.status.fault = true := by
  intro x hx
  refine ⟨?_, answers_spec ?_⟩ <;> revert x hx <;> decide +kernel

/-- A refused operation, `NOP`, `RESET` and the external reset input in the Faulted state. -/
theorem test_witness_FaultIsLatchedUntilReset :
    ∀ x ∈ [Input.request (.word 0x200000000), .request (.word 0), .request (.word 0xF00000000), .externalReset],
      ({ faulted blockA with port := [x] } : State).status.fault = true
        ∧ ∃ t, step { faulted blockA with port := [x] } = .next t := by
  intro x hx
  refine ⟨?_, completes_spec ?_⟩ <;> revert x hx <;> decide +kernel

theorem test_witness_valid_readings : validReading 1 = true ∧ validReading 6 = true := by decide

/-- The clauses of HallPerformsEveryCase at the ends of their ranges. -/
theorem test_witness_HallPerformsEveryCase :
    (faulted blockA).status.fault = true
    ∧ (blockA.status.fault = false ∧ blockA.htc.seeded = false
        ∧ ∀ r ∈ ([1, 6] : List HallReading), 1 ≤ r.toNat ∧ r.toNat ≤ 6)
    ∧ (∀ r ∈ ([0, 7] : List HallReading), r.toNat = 0 ∨ r.toNat = 7)
    ∧ ∀ p ∈ ([1, 6] : List HallReading), (seededAt blockA p).status.fault = false
        ∧ (seededAt blockA p).htc.seeded = true ∧ 1 ≤ (seededAt blockA p).htc.prev.toNat
        ∧ (seededAt blockA p).htc.prev.toNat ≤ 6 := by decide +kernel

/-- The counts at which the clauses of AccumulateStepsOrMarks meet. -/
theorem test_witness_AccumulateStepsOrMarks :
    ((0x7F : Byte) ≠ countSentinel ∧ countValue 0x7F = 127) ∧ ((0x7E : Byte) ≠ countSentinel ∧ countValue 0x7E < 127)
    ∧ ((0x81 : Byte) ≠ countSentinel ∧ countValue 0x81 = -127)
    ∧ ((0x82 : Byte) ≠ countSentinel ∧ -127 < countValue 0x82) := by decide

theorem test_witness_ContiguousWalkCountsItsSteps :
    (seededAt blockA 6).status.fault = false ∧ (seededAt blockA 6).htc.seeded = true
      ∧ validReading (seededAt blockA 6).htc.prev = true ∧ (seededAt blockA 6).vwe.cnt = 0
      ∧ 0 < 127 ∧ 127 < 128 := by decide +kernel

theorem test_witness_FaultyTickEscalates : ∀ e ∈ [ErrLevel.none, .soft],
    (withWindow blockA 0x80 e 0 0 []).status.fault = false ∧ (withWindow blockA 0x80 e 0 0 []).vwe.cnt = countSentinel
      ∧ (withWindow blockA 0x80 e 0 0 []).vwe.err = e := by decide +kernel

/-- A normal tick that meets the bound of 8 exactly, and one that exceeds it by one. -/
theorem test_witness_NormalTickSlidesWindow :
    ∀ x ∈ ([(2, 8), (3, 9)] : List (Byte × Int)),
      (withWindow blockS x.1 .soft 6 2 [(0, 3), (1, 3)]).Inv
      ∧ (withWindow blockS x.1 .soft 6 2 [(0, 3), (1, 3)]).status.fault = false
      ∧ x.1 ≠ countSentinel
      ∧ ∃ t, exec .tick (withWindow blockS x.1 .soft 6 2 [(0, 3), (1, 3)]) = .next t
        ∧ decide (wordValue t.vwe.vsum = x.2) = true := by
  intro x hx
  refine ⟨?_, ?_, ?_, answers_spec ?_⟩ <;> revert x hx <;> decide +kernel

theorem test_witness_DefaultBoundIsNeverExceeded :
    (withWindow blockA 127 .none 0 499 []).Inv ∧ (withWindow blockA 127 .none 0 499 []).par.maxPerTickCount = countMax
    ∧ (withWindow blockA 127 .none 0 499 []).status.fault = false
    ∧ (withWindow blockA 127 .none 0 499 []).vwe.cnt ≠ countSentinel
    ∧ ∃ t, exec .tick (withWindow blockA 127 .none 0 499 []) = .next t := by
  refine ⟨?_, ?_, ?_, ?_, completes_spec ?_⟩ <;> decide +kernel

theorem test_witness_TwoFaultyTicksEndHard :
    blockS.Inv ∧ blockS.status.fault = false ∧ blockS.vwe.err = .none ∧ (0x81 : Byte) ≠ countSentinel := by
  decide +kernel

/-- Counts with a faulty tick among them end Operational, with more normal ticks than slots. -/
theorem test_witness_SlidingWindowSumsLastCounts :
    ∃ t, tickSeq [1, 2, 0x80, 0, 0xFF, 2] (State.resetWith Config.cfgS) = .next t
      ∧ (!t.status.fault && t.vwe.vsum == 3) = true := answers_spec (by decide +kernel)

theorem test_witness_CtickIsTickThenPidstep :
    (faulted blockS).status.fault = true
    ∧ ∀ x ∈ [((2 : Byte), false), (3, true)],
      (withWindow blockS x.1 .none 6 2 [(0, 3), (1, 3)]).Inv
      ∧ (withWindow blockS x.1 .none 6 2 [(0, 3), (1, 3)]).status.fault = false
      ∧ ∃ t, exec .tick (withWindow blockS x.1 .none 6 2 [(0, 3), (1, 3)]) = .next t
        ∧ (t.status.fault == x.2) = true := by
  refine ⟨by decide +kernel, ?_⟩
  intro x hx
  refine ⟨?_, ?_, answers_spec ?_⟩ <;> revert x hx <;> decide +kernel

/-- Next states of every clause of TicksCountsPerformedTicks and SoftErrorCounterCountsNoneToSoft. -/
theorem test_witness_counters :
    ∀ x ∈ [(Instr.tick, withWindow blockA 0x80 .none 0 0 []), (.ctick, withWindow blockA 0x80 .none 0 0 []),
        (.reset, blockA), (.hall 1, blockA), (.tick, faulted blockA), (.tick, withWindow blockA 0x80 .soft 0 0 [])],
      ∃ t, exec x.1 x.2 = .next t := by
  intro x hx
  refine completes_spec ?_
  revert x hx
  decide +kernel

theorem test_witness_SetptStoresOrFaults :
    (faulted blockA).status.fault = true ∧ blockA.status.fault = false
    ∧ (∀ v ∈ ([20000, -20000, 0] : List Int), (toWord v).toInt.natAbs ≤ blockA.par.setpointMax)
    ∧ ∀ v ∈ ([20001, -20001, -2 ^ 31] : List Int), blockA.par.setpointMax < (toWord v).toInt.natAbs := by
  decide +kernel

theorem test_witness_PidstepComputesExactly :
    (faulted blockA).status.fault = true ∧ blockA.Inv ∧ blockA.status.fault = false := by decide +kernel

/-- An integral at each bound with an error of the same sign, and of 0. -/
theorem test_witness_IntegralStaysWithinBound :
    ∀ x ∈ ([(10000, -1), (10000, 0), (-10000, 1), (-10000, 0)] : List (Int × Int)),
      (withIntegral blockA (toWord x.1)).status.fault = false
      ∧ (∃ t, exec (.pidstep (toWord x.2)) (withIntegral blockA (toWord x.1)) = .next t)
      ∧ (((toWord x.1).toInt = (Config.cfgA.val.iBound : Int)
            ∧ 0 ≤ blockA.pid.setpoint.toInt - (toWord x.2).toInt)
          ∨ ((toWord x.1).toInt = -(Config.cfgA.val.iBound : Int)
            ∧ blockA.pid.setpoint.toInt - (toWord x.2).toInt ≤ 0)) := by
  intro x hx
  refine ⟨?_, completes_spec ?_, ?_⟩ <;> revert x hx <;> decide +kernel

theorem test_witness_StuffedBytesNeverHoldHeader :
    (stuff [0x00, 0xFF, 0xFF, 0xFD, 0x00]).1 = [0x00] ++ [0xFF, 0xFF, 0xFD] ++ [0xFD, 0x00] := by decide

theorem test_witness_PpushStagesOrRefuses :
    (faulted blockA).status.fault = true ∧ (staging blockA (.replicate 8 1) 8).tx.pn.val = 8
    ∧ (staging blockA (.replicate 8 1) 7).status.fault = false ∧ (staging blockA (.replicate 8 1) 7).tx.pn.val < 8
    := by decide +kernel

/-- The gate's two clauses, of `PCLR`, `BUILD`, `RXARM` and the statements of one hypothesis. -/
theorem test_witness_gate : (faulted blockA).status.fault = true ∧ blockA.status.fault = false := by decide +kernel

theorem test_witness_RxbyteRefusedWhenInactive :
    (faulted blockA).status.fault = true ∧ blockA.rx.state = .idle ∧ (receiving blockA .done 0 0 0 0).rx.state = .done := by
  decide +kernel

theorem test_witness_RxbyteHuntsForHeader : ∀ h : Fin 4,
    (hunting blockA h).status.fault = false ∧ (hunting blockA h).rx.state = .hunt ∧ (hunting blockA h).rx.hdr = h := by
  decide +kernel

theorem test_witness_RxbyteChecksId :
    (receiving blockA .id 0 0 0 0).status.fault = false ∧ (receiving blockA .id 0 0 0 0).rx.state = .id
      ∧ (1 : Byte) = (receiving blockA .id 0 0 0 0).rx.expect ∧ (2 : Byte) ≠ (receiving blockA .id 0 0 0 0).rx.expect := by
  decide +kernel

/-- The lengths 3 and 13 are legal; 2, 14 and 260 are not. -/
theorem test_witness_RxbyteTakesLength :
    (receiving blockA .lenLo 0 0 0 0).status.fault = false ∧ (receiving blockA .lenLo 0 0 0 0).rx.state = .lenLo
    ∧ ∀ x ∈ ([(3, 0, true), (13, 0, true), (2, 0, false), (14, 0, false), (4, 1, false)] : List (Nat × Nat × Bool)),
      (receiving blockA .lenHi (BitVec.ofNat 16 x.1) 0 0 0).rx.state = .lenHi
        ∧ (receiving blockA .lenHi (BitVec.ofNat 16 x.1) 0 0 0).rx.len.toNat < 256
        ∧ ∃ t, exec (.rxbyte (BitVec.ofNat 8 x.2.1)) (receiving blockA .lenHi (BitVec.ofNat 16 x.1) 0 0 0) = .next t
          ∧ (decide (t.rx.state = .instr) == x.2.2) = true := by
  refine ⟨by decide +kernel, by decide +kernel, ?_⟩
  intro x hx
  refine ⟨?_, ?_, answers_spec ?_⟩ <;> revert x hx <;> decide +kernel

theorem test_witness_RxbyteChecksInstruction : ∀ rem ∈ ([0, 1] : List (Fin 11)),
    (receiving blockA .instr 3 rem 0 0).status.fault = false ∧ (receiving blockA .instr 3 rem 0 0).rx.state = .instr
      ∧ (receiving blockA .instr 3 rem 0 0).rx.rem = rem := by decide +kernel

/-- The clauses of RxbyteTakesParameter: after the pattern, with the file full, and storing, for the last byte and for
one before it; `FD` after two `FF` completes the pattern. -/
theorem test_witness_RxbyteTakesParameter :
    (∀ x ∈ [((1 : Fin 11), (3 : Fin 4), (3 : Fin 9)), (2, 3, 3), (1, 0, 8), (1, 2, 7), (10, 0, 0)],
      (receiving blockA .params 13 x.1 x.2.1 x.2.2).status.fault = false
      ∧ (receiving blockA .params 13 x.1 x.2.1 x.2.2).rx.state = .params
      ∧ (receiving blockA .params 13 x.1 x.2.1 x.2.2).rx.rem ≠ 0) ∧ win 2 0xFD = 3 ∧ win 2 0xFE ≠ 3 := by
  decide +kernel

theorem test_witness_RxbyteChecksCrc :
    (receiving blockA .crcLo 3 0 0 0).status.fault = false ∧ (receiving blockA .crcLo 3 0 0 0).rx.state = .crcLo
    ∧ (receiving blockA .crcHi 3 0 0 0).rx.state = .crcHi
    ∧ (receiving blockA .crcHi 3 0 0 0).rx.crcLo.toNat + 256 * (0 : Byte).toNat
        = ((receiving blockA .crcHi 3 0 0 0).rx.crc ^^^ blockA.par.crcXorOut).toNat
    ∧ (receiving blockA .crcHi 3 0 0 0).rx.crcLo.toNat + 256 * (1 : Byte).toNat
        ≠ ((receiving blockA .crcHi 3 0 0 0).rx.crc ^^^ blockA.par.crcXorOut).toNat := by decide +kernel

theorem test_witness_RxtmoEndsReception :
    (faulted blockA).status.fault = true ∧ blockA.rx.state = .idle ∧ (hunting blockA 0).status.fault = false
      ∧ (hunting blockA 0).rx.state ≠ .idle ∧ (hunting blockA 0).rx.state ≠ .done := by decide +kernel

/-- Eight parameters to a unicast id, and none to the broadcast id. -/
theorem test_witness_PacketSendFramesPacket :
    blockA.status.fault = false ∧ ([0xFF, 0xFF, 0xFD, 0xFF, 0xFF, 0xFD, 1, 2] : List Byte).length ≤ 8
      ∧ Instr.pktWrite 1 [0xFF, 0xFF, 0xFD, 0xFF, 0xFF, 0xFD, 1, 2]
        = .pktWrite 1 [0xFF, 0xFF, 0xFD, 0xFF, 0xFF, 0xFD, 1, 2]
      ∧ ([] : List Byte).length ≤ 8 ∧ Instr.pktAction 0xFE [] = .pktAction broadcastId [] := by decide +kernel

/-- V-R1's CRC field, and another one. -/
theorem test_witness_StatusResponseIsReceived :
    blockA.status.fault = false ∧ ([0x00] : List Byte).length ≤ 8
      ∧ (0x4C0A : Half) = crc16 blockA.par (framePre 1 0x55 [0x00])
      ∧ (0x4D0A : Half) ≠ crc16 blockA.par (framePre 1 0x55 [0x00]) := by decide +kernel

/-- A built packet of 13 bytes after its length field, the first bytes of it fed to an armed receiver, and an
instruction byte other than 0x55, whose packet's first 8 bytes end the reception. -/
theorem test_witness_BuiltPacketRoundTrips :
    (staging blockA #v[0xFF, 0xFF, 0xFD, 0xFF, 0xFF, 0xFD, 1, 2] 8).status.fault = false
      ∧ (∃ w, execSeq (.build 1 0x55 :: .rxarm 1 :: rxFeedOps [0xFF, 0xFF])
          (staging blockA #v[0xFF, 0xFF, 0xFD, 0xFF, 0xFF, 0xFD, 1, 2] 8) = .next w ∧ (w.tx.len == 20) = true)
      ∧ (0x03 : Byte) ≠ 0x55
      ∧ ∃ v, execSeq (.build 1 0x03 :: .rxarm 1 :: rxFeedOps [0xFF, 0xFF, 0xFD, 0x00, 0x01, 0x0D, 0x00, 0x03])
          (staging blockA #v[0xFF, 0xFF, 0xFD, 0xFF, 0xFF, 0xFD, 1, 2] 8) = .next v
        ∧ (decide (v.txPacket.take 8 = [0xFF, 0xFF, 0xFD, 0x00, 0x01, 0x0D, 0x00, 0x03])
            && decide (v.rx.cause = .instrMismatch)) = true :=
  ⟨by decide +kernel, answers_spec (by decide +kernel), by decide, answers_spec (by decide +kernel)⟩

theorem test_witness_StatusPacketIsFedByteByByte :
    (receiving blockA .params 13 1 0 0).rx.state = .params ∧ (receiving blockA .params 13 1 0 0).rx.rem ≠ 0 := by
  decide +kernel

/-- A state with a window, a set-point and a reception under way meets the invariant and steps. -/
theorem test_witness_StepKeepsInvariant :
    ({ receiving (withWindow blockS 2 .soft 6 2 [(0, 3), (1, 3)]) .lenHi 255 0 0 0 with
        port := [.request (.word 0x500000000)] } : State).Inv
    ∧ ∃ t, step { receiving (withWindow blockS 2 .soft 6 2 [(0, 3), (1, 3)]) .lenHi 255 0 0 0 with
        port := [.request (.word 0x500000000)] } = .next t :=
  ⟨by decide +kernel, completes_spec (by decide +kernel)⟩

/-- The faults of the model do occur outside the invariant. -/
theorem test_model_faults_outside_invariant :
    (match execTick (withWindow blockS 0 .none 0 4 []) with | .fault f => decide (f = .noWindowSlot 4) | _ => false)
      = true
    ∧ (match execHall 1 (seededAt blockS 7) with | .fault f => decide (f = .noHallEntry 7) | _ => false) = true
    ∧ (match execTick (withWindow blockS 0 .hard 0 0 []) with | .fault f => decide (f = .hardUnlatched) | _ => false)
      = true
    ∧ (match execRxbyte 0 (receiving blockS .params 3 0 0 0) with | .fault f => decide (f = .noParamsLeft) | _ => false)
      = true := by decide +kernel

/-- States that meet the invariant with bytes that are no packet, a reset, and nothing at the port. -/
theorem test_witness_EveryStepCompletes :
    ∀ port ∈ [[], [Input.externalReset], [.request (.packet [])], [.request (.packet [0xFF, 0xFF, 0xFD, 0x00, 1, 2, 0])]],
      ({ hunting blockS 0 with port := port } : State).Inv := by decide +kernel

theorem test_witness_FramerAndMotorLeaveEachOther :
    isFramerOp (.build 1 3) = true ∧ isMotorOp .ctick = true
      ∧ (∃ t, exec (.build 1 3) blockA = .next t) ∧ ∃ t, exec .ctick blockA = .next t :=
  ⟨rfl, rfl, completes_spec (by decide +kernel), completes_spec (by decide +kernel)⟩

theorem test_witness_FramerAndMotorCommute :
    isFramerOp (.ppush 1) = true ∧ isMotorOp (.hall 3) = true ∧ (seededAt blockA 1).status.fault = false
      ∧ (∃ t, execSeq [.ppush 1, .hall 3] (seededAt blockA 1) = .next t ∧ (!t.status.fault) = true)
      ∧ ∃ u, execSeq [.hall 3, .ppush 1] (seededAt blockA 1) = .next u :=
  ⟨rfl, rfl, rfl, answers_spec (by decide +kernel), completes_spec (by decide +kernel)⟩

end Sys2Proof.Tests
end

