-- ==== Sys2Proof/Proofs/Scope.lean ====
section
/-! PROOFS. The statements of spec/00_scope.md: what a step runs, and that it changes neither the configuration nor more
of the port than its oldest input. -/

namespace Sys2Proof.Proofs.Scope

open Sys2Proof Sys2Proof.Machine

variable {s t u : State}

/-! ### What a step runs -/

/-- With a request at the head of the port that decodes, the step is the instruction's meaning. -/
theorem step_of_decoded {r : Request} {rest : List Input} {i : Instr} (hport : s.port = .request r :: rest)
    (hdecode : decode r = .ok i) : step s = exec i { s with port := rest } := by
  simp only [step, State.nextInput, hport, hdecode]

/-- With bytes at the head of the port that are no packet instruction, the step receives them. -/
theorem step_of_undecodable {bytes : List Byte} {rest : List Input} {e : DecodeError}
    (hport : s.port = .request (.packet bytes) :: rest) (hdecode : decode (.packet bytes) = .error e) :
    step s = receiveBytes bytes { s with port := rest } := by
  simp only [step, State.nextInput, hport, hdecode, Request.lineBytes]

/-- A row of the opcode table reads as an instruction when its request decodes to it. -/
theorem decodeTableWord_eq_some {nbits w : Nat} {i : Instr} :
    decodeTableWord nbits w = some i ↔ decode (tableRequest nbits w) = .ok i := by
  unfold decodeTableWord
  cases decode (tableRequest nbits w) <;> simp

/-! ### The frame of every operation: the configuration and the waiting inputs -/

/-- The part of the state that is the environment's and not the block's: the configuration (log 1) and the inputs still
waiting (log 3) are the same in both states. -/
structure SameSetting (s t : State) : Prop where
  cfg : t.cfg = s.cfg
  port : t.port = s.port

theorem SameSetting.trans (h : SameSetting s t) (k : SameSetting t u) : SameSetting s u :=
  ⟨k.cfg.trans h.cfg, k.port.trans h.port⟩

/-- A refusal keeps the setting, so a gated operation keeps it when its ungated lines do. -/
theorem gated_keeps_setting {k : State → Result} (h : gated s k = .next t)
    (hk : k s = .next t → SameSetting s t) : SameSetting s t := by
  rcases gated_eq_next.1 h with ⟨-, rfl⟩ | ⟨-, hnext⟩
  · exact ⟨rfl, rfl⟩
  · exact hk hnext

/-- The same for a gated operation whose ungated lines always complete. -/
theorem gated_next_keeps_setting {f : State → State} (h : gated s (fun v => .next (f v)) = .next t)
    (hf : SameSetting s (f s)) : SameSetting s t :=
  gated_keeps_setting h fun hnext => by cases hnext; exact hf

theorem hallUpdate_keeps_setting {r : HallReading} (h : hallUpdate r s = .next t) : SameSetting s t := by
  rcases hallUpdate_eq_next h with ⟨-, -, rfl⟩ | ⟨-, -, rfl⟩ | ⟨-, -, rfl⟩ <;> exact ⟨rfl, rfl⟩

theorem faultyTick_keeps_setting (s : State) : SameSetting s (faultyTick s) := by
  rcases faultyTick_cases s with ⟨-, e⟩ | ⟨-, e⟩ <;> rw [e] <;> exact ⟨rfl, rfl⟩

theorem normalTick_keeps_setting (s : State) : SameSetting s (normalTick s) := by
  rcases normalTick_cases s with ⟨-, e⟩ | ⟨-, e⟩ <;> rw [e] <;> exact ⟨rfl, rfl⟩

theorem tickUpdate_keeps_setting (h : tickUpdate s = .next t) : SameSetting s t := by
  have hticked : SameSetting s s.ticked := ⟨rfl, rfl⟩
  obtain ⟨-, ⟨-, rfl⟩ | ⟨-, -, rfl⟩⟩ := tickUpdate_eq_next h
  · exact hticked.trans (faultyTick_keeps_setting _)
  · exact hticked.trans (normalTick_keeps_setting _)

theorem setpointUpdate_keeps_setting (v : Word) (s : State) : SameSetting s (setpointUpdate v s) := by
  rcases setpointUpdate_cases v s with ⟨-, e⟩ | ⟨-, e⟩ <;> rw [e] <;> exact ⟨rfl, rfl⟩

theorem pidUpdate_keeps_setting (s : State) (current : Int) : SameSetting s (pidUpdate s current) := by
  obtain ⟨pid, e, -⟩ := pidUpdate_frame s current
  rw [e]; exact ⟨rfl, rfl⟩

theorem controlAfterTick_keeps_setting (s : State) : SameSetting s (controlAfterTick s) := by
  unfold controlAfterTick
  split
  · exact ⟨rfl, rfl⟩
  · exact pidUpdate_keeps_setting s _

theorem execCtick_keeps_setting (h : execCtick s = .next t) : SameSetting s t :=
  gated_keeps_setting h fun hnext => by
    obtain ⟨v, htick, hcontrol⟩ := andThen_eq_next.1 hnext
    cases hcontrol
    exact (tickUpdate_keeps_setting htick).trans (controlAfterTick_keeps_setting v)

theorem stageByte_keeps_setting (b : Byte) (s : State) : SameSetting s (stageByte b s) :=
  have ⟨hcfg, hport, _⟩ := stageByte_frame b s
  ⟨hcfg, hport⟩

theorem sendPacket_keeps_setting (id instr : Byte) (params : List Byte) (s : State) :
    SameSetting s (sendPacket id instr params s) :=
  have ⟨hcfg, hport, _⟩ := sendPacket_frame id instr params s
  ⟨hcfg, hport⟩

theorem feedByte_keeps_setting {b : Byte} (h : feedByte b s = .next t) : SameSetting s t :=
  have ⟨hcfg, hport, _⟩ := feedByte_frame h
  ⟨hcfg, hport⟩

theorem feedBytes_keeps_setting {bytes : List Byte} (h : feedBytes bytes s = .next t) : SameSetting s t :=
  have ⟨hcfg, hport, _⟩ := feedBytes_frame h
  ⟨hcfg, hport⟩

theorem receiveBytes_keeps_setting {bytes : List Byte} (h : receiveBytes bytes s = .next t) : SameSetting s t :=
  have ⟨hcfg, hport, _⟩ := receiveBytes_frame h
  ⟨hcfg, hport⟩

theorem receiveTimeout_keeps_setting (s : State) : SameSetting s (receiveTimeout s) := by
  rcases receiveTimeout_cases s with ⟨-, e⟩ | ⟨-, -, e⟩ <;> rw [e] <;> exact ⟨rfl, rfl⟩

/-- No instruction, `RESET` among them, changes the configuration or the waiting inputs. -/
theorem exec_keeps_setting {i : Instr} (h : exec i s = .next t) : SameSetting s t := by
  cases i with
  | nop => cases h; exact ⟨rfl, rfl⟩
  | hall r => exact gated_keeps_setting h hallUpdate_keeps_setting
  | tick => exact gated_keeps_setting h tickUpdate_keeps_setting
  | setpt v => exact gated_next_keeps_setting h (setpointUpdate_keeps_setting v s)
  | pidstep current =>
    exact gated_next_keeps_setting (f := fun v => pidUpdate v (wordValue current)) h (pidUpdate_keeps_setting s _)
  | ctick => exact execCtick_keeps_setting h
  | ppush b => exact gated_next_keeps_setting h (stageByte_keeps_setting b s)
  | pclr => exact gated_next_keeps_setting h ⟨rfl, rfl⟩
  | build id instr => exact gated_next_keeps_setting h ⟨rfl, rfl⟩
  | rxarm id => exact gated_next_keeps_setting h ⟨rfl, rfl⟩
  | rxbyte b => exact gated_keeps_setting h feedByte_keeps_setting
  | rxtmo => exact gated_next_keeps_setting h (receiveTimeout_keeps_setting s)
  | reservedC => cases h; exact ⟨rfl, rfl⟩
  | reservedD => cases h; exact ⟨rfl, rfl⟩
  | reservedE => cases h; exact ⟨rfl, rfl⟩
  | reset => cases h; exact ⟨rfl, rfl⟩
  | pktWrite id params => exact gated_next_keeps_setting h (sendPacket_keeps_setting id _ params s)
  | pktRegWrite id params => exact gated_next_keeps_setting h (sendPacket_keeps_setting id _ params s)
  | pktAction id params => exact gated_next_keeps_setting h (sendPacket_keeps_setting id _ params s)
  | pktFactoryReset id params => exact gated_next_keeps_setting h (sendPacket_keeps_setting id _ params s)
  | pktStatus id params crc => exact gated_keeps_setting h feedBytes_keeps_setting

/-- A step keeps the setting of the state whose oldest input it has taken. -/
theorem step_keeps_setting (h : step s = .next t) : SameSetting { s with port := s.port.tail } t := by
  rcases step_eq_next h with ⟨hport, rfl⟩ | ⟨rest, hport, rfl⟩ | ⟨r, rest, i, hport, -, hexec⟩
    | ⟨bytes, rest, e, hport, -, hreceive⟩
  · exact ⟨rfl, by simp [hport]⟩
  · exact ⟨rfl, by simp [hport]⟩
  · rw [hport]; exact exec_keeps_setting hexec
  · rw [hport]; exact receiveBytes_keeps_setting hreceive

/-! ### The obligations -/

/-- Settles O57: whatever a step runs, it runs on the state without its oldest input and keeps that state's setting. -/
theorem stepKeepsConfiguration : Obligations.StepKeepsConfiguration := by
  intro s t h
  obtain ⟨hcfg, hport⟩ := step_keeps_setting h
  exact ⟨hcfg, hport⟩

/-- Settles O5. A row of the opcode table is a request put before the waiting inputs, so its clause is the first one. -/
theorem stepRunsDecodedInstruction : Obligations.StepRunsDecodedInstruction := by
  refine ⟨fun s r rest i => step_of_decoded, fun s nbits w i hrow => ?_, fun s bytes rest e hport hdecode => ?_⟩
  · exact step_of_decoded (s.withFetchWord_port nbits w) (decodeTableWord_eq_some.1 hrow)
  · exact (step_of_undecodable hport hdecode).trans (receiveBytes_eq_execSeq bytes _)

end Sys2Proof.Proofs.Scope
end

section
/-! PROOFS. The statements of spec/10_state.md: the invariant of the reachable states (R45) holds after reset and is kept
by every step, every step from such a state completes, and the counters `ticks` and `soft_err_cnt` (R28, R29) move only
as their rules say. -/

namespace Sys2Proof.Proofs.Registers

open Sys2Proof Sys2Proof.Machine

variable {s t u : State}

/-! ### The bounds a well-formed configuration gives (00_scope.md R12) -/

/-- The clauses of R12 that keep the registers of R45 within their widths. -/
structure ConfigBounds (p : Params) : Prop where
  window_pos : 0 < p.windowLength
  window_fits : p.windowLength * countMax < 2 ^ 31
  iBound_fits : p.iBound < 2 ^ 31
  throttle_fits : p.throttleMax < 2 ^ 31
  setpoint_fits : p.setpointMax < 2 ^ 31

theorem configBounds_of_ok {p : Params} (hp : p.ok = true) : ConfigBounds p := by
  simp only [Params.ok, Params.okWindow, Params.okScaled, Params.okRanges, Bool.and_eq_true, decide_eq_true_eq] at hp
  obtain ⟨⟨⟨⟨⟨hwindow, -⟩, hrate, hscaled⟩, -⟩, ⟨⟨⟨⟨⟨⟨⟨hintegral, hthrottle⟩, hsetpoint⟩, -⟩, -⟩, -⟩, -⟩, -⟩⟩, -⟩ := hp
  have hfits : p.windowLength * countMax ≤ p.windowLength * countMax * p.tickHz := Nat.le_mul_of_pos_right _ hrate
  exact ⟨hwindow, by omega, by omega, by omega, by omega⟩

theorem par_bounds (s : State) : ConfigBounds s.par := configBounds_of_ok s.cfg.property

/-! ### Gated operations -/

/-- What holds of the refusal and of whatever the ungated lines answer holds of the gated operation's answer. -/
theorem gated_next_elim {P : State → Prop} {k : State → Result} (h : gated s k = .next t) (hrefuse : P s.refuse)
    (hperform : s.status.fault = false → k s = .next t → P t) : P t := by
  rcases gated_eq_next.1 h with ⟨-, rfl⟩ | ⟨hfault, hnext⟩
  · exact hrefuse
  · exact hperform hfault hnext

/-- The same for ungated lines that always complete. -/
theorem gated_pure_elim {P : State → Prop} {f : State → State} (h : gated s (fun v => .next (f v)) = .next t)
    (hrefuse : P s.refuse) (hperform : s.status.fault = false → P (f s)) : P t :=
  gated_next_elim h hrefuse fun hfault hnext => by cases hnext; exact hperform hfault

/-- A gated operation completes when its ungated lines do. -/
theorem gated_completes {k : State → Result} (h : s.status.fault = false → ∃ t, k s = .next t) :
    ∃ t, gated s k = .next t := by
  cases hfault : s.status.fault with
  | false => simpa [hfault] using h hfault
  | true => exact ⟨_, gated_of_faulted hfault⟩

/-- Ungated lines that always complete make an operation that does. -/
theorem gated_pure_completes {f : State → State} : ∃ t, gated s (fun v => .next (f v)) = .next t :=
  gated_completes fun _ => ⟨f s, rfl⟩

/-- What `CTICK` answers next: a refusal in the Faulted state, else the control step after the tick. -/
theorem execCtick_eq_next (h : execCtick s = .next t) :
    (s.status.fault = true ∧ t = s.refuse)
    ∨ (s.status.fault = false ∧ ∃ u, tickUpdate s = .next u ∧ t = controlAfterTick u) := by
  rcases gated_eq_next.1 h with hrefused | ⟨hfault, hnext⟩
  · exact .inl hrefused
  · obtain ⟨u, htick, hcontrol⟩ := andThen_eq_next.1 hnext
    cases hcontrol
    exact .inr ⟨hfault, u, htick, rfl⟩

/-! ### The frame of the framer: everything but the transmit and receive halves and `op_ok` -/

/-- The configuration, the motor units and the fault latch are the same in both states (43_packet_framer.md R226). -/
structure SameMotor (s t : State) : Prop where
  cfg : t.cfg = s.cfg
  htc : t.htc = s.htc
  vwe : t.vwe = s.vwe
  pid : t.pid = s.pid
  fault : t.status.fault = s.status.fault
  cause : t.status.cause = s.status.cause

theorem SameMotor.refuse (s : State) : SameMotor s s.refuse := ⟨rfl, rfl, rfl, rfl, rfl, rfl⟩

theorem stageByte_sameMotor (b : Byte) (s : State) : SameMotor s (stageByte b s) :=
  have ⟨hcfg, _, hhtc, hvwe, hpid, _, hfault, hcause, _⟩ := stageByte_frame b s
  ⟨hcfg, hhtc, hvwe, hpid, hfault, hcause⟩

theorem sendPacket_sameMotor (id instr : Byte) (params : List Byte) (s : State) :
    SameMotor s (sendPacket id instr params s) :=
  have ⟨hcfg, _, hhtc, hvwe, hpid, hfault, hcause, _⟩ := sendPacket_frame id instr params s
  ⟨hcfg, hhtc, hvwe, hpid, hfault, hcause⟩

theorem feedByte_sameMotor {b : Byte} (h : feedByte b s = .next t) : SameMotor s t :=
  have ⟨hcfg, _, hhtc, hvwe, hpid, _, hfault, hcause⟩ := feedByte_frame h
  ⟨hcfg, hhtc, hvwe, hpid, hfault, hcause⟩

theorem feedBytes_sameMotor {bytes : List Byte} (h : feedBytes bytes s = .next t) : SameMotor s t :=
  have ⟨hcfg, _, hhtc, hvwe, hpid, _, hfault, hcause⟩ := feedBytes_frame h
  ⟨hcfg, hhtc, hvwe, hpid, hfault, hcause⟩

theorem receiveBytes_sameMotor {bytes : List Byte} (h : receiveBytes bytes s = .next t) : SameMotor s t :=
  have ⟨hcfg, _, hhtc, hvwe, hpid, _, hfault, hcause⟩ := receiveBytes_frame h
  ⟨hcfg, hhtc, hvwe, hpid, hfault, hcause⟩

theorem receiveTimeout_sameMotor (s : State) : SameMotor s (receiveTimeout s) := by
  rcases receiveTimeout_cases s with ⟨-, e⟩ | ⟨-, -, e⟩ <;> rw [e] <;> exact ⟨rfl, rfl, rfl, rfl, rfl, rfl⟩

theorem exec_framer_sameMotor {i : Instr} (hi : isFramerOp i = true) (h : exec i s = .next t) : SameMotor s t := by
  cases i with
  | ppush b => exact gated_pure_elim h (.refuse s) fun _ => stageByte_sameMotor b s
  | pclr => exact gated_pure_elim h (.refuse s) fun _ => ⟨rfl, rfl, rfl, rfl, rfl, rfl⟩
  | build id instr => exact gated_pure_elim h (.refuse s) fun _ => ⟨rfl, rfl, rfl, rfl, rfl, rfl⟩
  | rxarm id => exact gated_pure_elim h (.refuse s) fun _ => ⟨rfl, rfl, rfl, rfl, rfl, rfl⟩
  | rxbyte b => exact gated_next_elim h (.refuse s) fun _ => feedByte_sameMotor
  | rxtmo => exact gated_pure_elim h (.refuse s) fun _ => receiveTimeout_sameMotor s
  | pktWrite id params => exact gated_pure_elim h (.refuse s) fun _ => sendPacket_sameMotor id _ params s
  | pktRegWrite id params => exact gated_pure_elim h (.refuse s) fun _ => sendPacket_sameMotor id _ params s
  | pktAction id params => exact gated_pure_elim h (.refuse s) fun _ => sendPacket_sameMotor id _ params s
  | pktFactoryReset id params => exact gated_pure_elim h (.refuse s) fun _ => sendPacket_sameMotor id _ params s
  | pktStatus id params crc => exact gated_next_elim h (.refuse s) fun _ => feedBytes_sameMotor
  | _ => cases hi

/-! ### The framer's invariant, transmit half (10_state.md R45 (h)) -/

theorem win_le_succ (m : Fin 4) (b : Byte) : (win m b).val ≤ m.val + 1 := by
  match m with
  | 0 | 1 | 2 => simp only [win]; split_ifs <;> simp
  | 3 => simp [win]

/-- 43_packet_framer.md R206 (a), from any match count on: a byte is inserted after three that match. -/
theorem stuffFrom_length (m : Fin 4) (params : List Byte) :
    (stuffFrom m params).1.length = params.length + (stuffFrom m params).2
      ∧ 3 * (stuffFrom m params).2 ≤ m.val + params.length := by
  induction params generalizing m with
  | nil => simp [stuffFrom]
  | cons b bs ih =>
    have hwin := win_le_succ m b
    unfold stuffFrom
    split
    · rename_i hmatch
      obtain ⟨hlength, hcount⟩ := ih 0
      rw [hmatch] at hwin
      simp only [List.length_cons, Fin.val_zero, Fin.isValue] at *
      constructor <;> omega
    · obtain ⟨hlength, hcount⟩ := ih (win m b)
      simp only [List.length_cons]
      constructor <;> omega

/-- A packet with at most eight parameters fits the transmit buffer (43_packet_framer.md R212). -/
theorem framePacket_length_le (p : Params) (id instr : Byte) {params : List Byte} (h : params.length ≤ maxParams) :
    (framePacket p id instr params).length ≤ txSize := by
  obtain ⟨hlength, hcount⟩ := stuffFrom_length 0 params
  have hframe : (framePacket p id instr params).length = 10 + (stuffFrom 0 params).1.length := by
    simp only [framePacket, framePre, stuff, header, crcField, List.length_append, List.length_cons, List.length_nil]
    omega
  simp only [txSize, maxStuffed, maxParams, Fin.val_zero] at *
  omega

theorem staged_length_le (x : Tx) : x.staged.length ≤ maxParams := by
  simp [Tx.staged, maxParams]

theorem stageByte_framerInv (b : Byte) (h : s.FramerInv) : (stageByte b s).FramerInv := by
  rcases stageByte_cases b s with ⟨_, e⟩ | ⟨-, e⟩ <;> rw [e] <;> exact h

theorem stageBytes_framerInv (params : List Byte) (h : s.FramerInv) : (stageBytes params s).FramerInv := by
  induction params generalizing s with
  | nil => exact h
  | cons b bs ih => exact ih (stageByte_framerInv b h)

theorem buildPacket_framerInv (id instr : Byte) (h : s.FramerInv) : (buildPacket id instr s).FramerInv := by
  obtain ⟨-, hwf, hextent, hreceive⟩ := h
  have hlen := framePacket_length_le s.par id instr (staged_length_le s.tx)
  refine ⟨hlen, Memory.wf_writeBytes hwf 0 _, fun c hc => ?_, hreceive⟩
  rcases Memory.mem_writeBytes hc with hold | ⟨-, hnew⟩
  · exact hextent c hold
  · omega

/-! ### The framer's invariant, receive half (10_state.md R45 (h), 43_packet_framer.md R219) -/

/-- The clauses of the framer's invariant about the receive half. -/
def ReceiverInv (x : Rx) : Prop := (x.state = .params → x.rem ≠ 0) ∧ (x.state = .lenHi → x.len.toNat < 256)

theorem receiverInv_of_framerInv (h : s.FramerInv) : ReceiverInv s.rx :=
  have ⟨_, _, _, hreceive⟩ := h
  hreceive

/-- A receive half that keeps its clauses keeps the framer's invariant. -/
theorem framerInv_of_receiverInv {x : Rx} (h : s.FramerInv) (hx : ReceiverInv x) :
    State.FramerInv { s.perform with rx := x } :=
  have ⟨hlen, hwf, hextent, _⟩ := h
  ⟨hlen, hwf, hextent, hx⟩

/-- Outside PARAMS and LEN_HI the receive half owes nothing. -/
theorem receiverInv_of_state {x : Rx} (hparams : x.state ≠ .params) (hlenHi : x.state ≠ .lenHi) : ReceiverInv x :=
  ⟨fun h => absurd h hparams, fun h => absurd h hlenHi⟩

theorem fail_receiverInv (x : Rx) (c : RxCause) : ReceiverInv (x.fail c) := receiverInv_of_state nofun nofun

theorem huntStep_receiverInv (p : Params) {x : Rx} (b : Byte) (h : x.state = .hunt) : ReceiverInv (x.huntStep p b) := by
  have hstate : (x.huntStep p b).state = .hunt ∨ (x.huntStep p b).state = .id := by
    unfold Rx.huntStep
    split
    case h_4 => split <;> simp [h]
    all_goals exact .inl h
  rcases hstate with e | e <;> exact receiverInv_of_state (by simp [e]) (by simp [e])

theorem idStep_receiverInv (p : Params) (x : Rx) (b : Byte) : ReceiverInv (x.idStep p b) := by
  unfold Rx.idStep
  simp only
  split
  · exact fail_receiverInv _ _
  · exact receiverInv_of_state nofun nofun

theorem lenLoStep_receiverInv (p : Params) (x : Rx) (b : Byte) : ReceiverInv (x.lenLoStep p b) := by
  refine ⟨nofun, fun _ => ?_⟩
  show (b.setWidth 16).toNat < 256
  have := b.isLt
  rw [BitVec.toNat_setWidth]
  omega

theorem lenHiStep_receiverInv (p : Params) (x : Rx) (b : Byte) : ReceiverInv (x.lenHiStep p b) := by
  unfold Rx.lenHiStep
  simp only
  split
  · exact receiverInv_of_state nofun nofun
  · exact fail_receiverInv _ _

theorem instrStep_receiverInv (p : Params) (x : Rx) (b : Byte) : ReceiverInv (x.instrStep p b) := by
  unfold Rx.instrStep
  simp only
  split
  · exact fail_receiverInv _ _
  · split
    · exact receiverInv_of_state nofun nofun
    · rename_i hrem
      exact ⟨fun _ => hrem, nofun⟩

/-- Line 4 of R222 leaves PARAMS when no parameter is left to come. -/
theorem endParam_receiverInv {x : Rx} (h : x.state = .params) : ReceiverInv x.endParam := by
  unfold Rx.endParam
  split
  · split
    · exact fail_receiverInv _ _
    · exact receiverInv_of_state nofun nofun
  · rename_i hrem
    exact ⟨fun _ => hrem, by simp [h]⟩

theorem paramsStep_receiverInv (p : Params) {x : Rx} (b : Byte) (h : x.state = .params) :
    ReceiverInv (x.paramsStep p b) := by
  unfold Rx.paramsStep Rx.takeParam
  split
  · split
    · exact endParam_receiverInv h
    · exact fail_receiverInv _ _
  · split
    · exact endParam_receiverInv h
    · exact fail_receiverInv _ _

theorem crcHiStep_receiverInv (p : Params) (x : Rx) (b : Byte) : ReceiverInv (x.crcHiStep p b) := by
  unfold Rx.crcHiStep
  split
  · exact receiverInv_of_state nofun nofun
  · exact fail_receiverInv _ _

theorem feedByte_framerInv {b : Byte} (hs : s.FramerInv) (h : feedByte b s = .next t) : t.FramerInv := by
  rcases feedByte_eq_next h with ⟨-, rfl⟩ | ⟨hstate, rfl⟩ | ⟨-, rfl⟩ | ⟨-, rfl⟩ | ⟨-, rfl⟩ | ⟨-, rfl⟩
    | ⟨hstate, -, rfl⟩ | ⟨-, rfl⟩ | ⟨-, rfl⟩
  case inl => exact hs
  all_goals apply framerInv_of_receiverInv hs
  · exact huntStep_receiverInv _ b hstate
  · exact idStep_receiverInv _ _ b
  · exact lenLoStep_receiverInv _ _ b
  · exact lenHiStep_receiverInv _ _ b
  · exact instrStep_receiverInv _ _ b
  · exact paramsStep_receiverInv _ b hstate
  · exact receiverInv_of_state nofun nofun
  · exact crcHiStep_receiverInv _ _ b

theorem feedBytes_framerInv {bytes : List Byte} (hs : s.FramerInv) (h : feedBytes bytes s = .next t) :
    t.FramerInv := by
  induction bytes generalizing s with
  | nil => cases h; exact hs
  | cons b bs ih =>
    obtain ⟨u, hu, ht⟩ := andThen_eq_next.1 h
    exact ih (feedByte_framerInv hs hu) ht

theorem execRxbyte_framerInv {b : Byte} (hs : s.FramerInv) (h : execRxbyte b s = .next t) : t.FramerInv :=
  gated_next_elim (P := State.FramerInv) h hs fun _ => feedByte_framerInv hs

theorem receiveBytes_framerInv {bytes : List Byte} (hs : s.FramerInv) (h : receiveBytes bytes s = .next t) :
    t.FramerInv := by
  induction bytes generalizing s with
  | nil => cases h; exact hs
  | cons b bs ih =>
    obtain ⟨u, hu, ht⟩ := andThen_eq_next.1 h
    exact ih (execRxbyte_framerInv hs hu) ht

theorem armReceiver_framerInv (id : Byte) (h : s.FramerInv) : (armReceiver id s).FramerInv :=
  framerInv_of_receiverInv h (receiverInv_of_state nofun nofun)

theorem receiveTimeout_framerInv (h : s.FramerInv) : (receiveTimeout s).FramerInv := by
  rcases receiveTimeout_cases s with ⟨-, e⟩ | ⟨-, -, e⟩ <;> rw [e]
  · exact h
  · exact framerInv_of_receiverInv h (fail_receiverInv _ _)

theorem sendPacket_framerInv (id instr : Byte) (params : List Byte) (h : s.FramerInv) :
    (sendPacket id instr params s).FramerInv := by
  have hbuilt : (buildPacket id instr (stageBytes params (clearStaging s))).FramerInv :=
    buildPacket_framerInv id instr (stageBytes_framerInv params h)
  unfold sendPacket
  simp only
  split
  · exact hbuilt
  · exact armReceiver_framerInv id hbuilt

theorem exec_framer_framerInv {i : Instr} (hi : isFramerOp i = true) (hs : s.FramerInv) (h : exec i s = .next t) :
    t.FramerInv := by
  cases i with
  | ppush b => exact gated_pure_elim (P := State.FramerInv) h hs fun _ => stageByte_framerInv b hs
  | pclr => exact gated_pure_elim (P := State.FramerInv) h hs fun _ => hs
  | build id instr => exact gated_pure_elim (P := State.FramerInv) h hs fun _ => buildPacket_framerInv id instr hs
  | rxarm id => exact gated_pure_elim (P := State.FramerInv) h hs fun _ => armReceiver_framerInv id hs
  | rxbyte b => exact execRxbyte_framerInv hs h
  | rxtmo => exact gated_pure_elim (P := State.FramerInv) h hs fun _ => receiveTimeout_framerInv hs
  | pktWrite id params =>
    exact gated_pure_elim (P := State.FramerInv) h hs fun _ => sendPacket_framerInv id _ params hs
  | pktRegWrite id params =>
    exact gated_pure_elim (P := State.FramerInv) h hs fun _ => sendPacket_framerInv id _ params hs
  | pktAction id params =>
    exact gated_pure_elim (P := State.FramerInv) h hs fun _ => sendPacket_framerInv id _ params hs
  | pktFactoryReset id params =>
    exact gated_pure_elim (P := State.FramerInv) h hs fun _ => sendPacket_framerInv id _ params hs
  | pktStatus id params crc => exact gated_next_elim (P := State.FramerInv) h hs fun _ => feedBytes_framerInv hs
  | _ => cases hi

theorem framerInv_of_inv (h : s.Inv) : s.FramerInv :=
  have ⟨_, _, _, _, hframer⟩ := h
  hframer

/-- The motor side's clauses of the invariant speak only of what the framer leaves. -/
theorem inv_of_sameMotor (hs : s.Inv) (h : SameMotor s t) (hframer : t.FramerInv) : t.Inv := by
  obtain ⟨hwindow, hdecoder, hpid, hlatch, -⟩ := hs
  obtain ⟨ecfg, ehtc, evwe, epid, efault, ecause⟩ := h
  refine ⟨?_, ?_, ?_, ?_, hframer⟩
  · simpa only [State.WindowInv, State.par, ecfg, evwe] using hwindow
  · simpa only [State.DecoderInv, ehtc] using hdecoder
  · simpa only [State.PidInv, State.par, ecfg, epid] using hpid
  · simpa only [State.LatchInv, State.par, ecfg, evwe, epid, efault, ecause] using hlatch

/-! ### The window (10_state.md R45 (a), (b), (d)) -/

/-- A per-tick count that is not the sentinel is within ±COUNT_MAX. -/
theorem countValue_natAbs_le {b : Byte} (h : b ≠ countSentinel) : (countValue b).natAbs ≤ countMax := by
  have hlow := BitVec.le_toInt b
  have hhigh := BitVec.toInt_lt (x := b)
  have hne : b.toInt ≠ -128 := fun e => h (BitVec.eq_of_toInt_eq (e.trans (by decide)))
  simp only [countValue, countMax]
  omega

theorem windowSum_natAbs_le {buf : Memory} {n : Nat} (h : ∀ i < n, (slotValue buf i).natAbs ≤ countMax) :
    (windowSum buf n).natAbs ≤ n * countMax := by
  induction n with
  | zero => simp [windowSum]
  | succ n ih =>
    have hinit := ih fun i hi => h i (by omega)
    have hlast := h n (by omega)
    rw [windowSum, Nat.succ_mul]
    omega

theorem slotValue_write_natAbs_le {buf : Memory} {n a : Nat} {b : Byte}
    (h : ∀ i < n, (slotValue buf i).natAbs ≤ countMax) (hb : (countValue b).natAbs ≤ countMax) :
    ∀ i < n, (slotValue (buf.write a b) i).natAbs ≤ countMax := by
  intro i hi
  by_cases e : i = a
  · rw [e, slotValue, Memory.read_write_self]
    exact hb
  · rw [slotValue, Memory.read_write_of_ne buf b e]
    exact h i hi

/-- Sliding the window keeps its clauses: the new sum is the sum of the new slots, and fits its register. -/
theorem slideWindow_windowInv (h : s.WindowInv) (hcnt : s.vwe.cnt ≠ countSentinel) : (slideWindow s).WindowInv := by
  obtain ⟨hsum, hslots, hcur, hwf, hextent⟩ := h
  have hcfg := par_bounds s
  have hslots' := slotValue_write_natAbs_le (a := s.vwe.cur) hslots (countValue_natAbs_le hcnt)
  have hbound := windowSum_natAbs_le hslots'
  have hvalue : wordValue s.vwe.vsum - countValue (s.vwe.buf.read s.vwe.cur) + countValue s.vwe.cnt
      = windowSum (s.vwe.buf.write s.vwe.cur s.vwe.cnt) s.par.windowLength := by
    rw [windowSum_write _ _ hcur, hsum, slotValue]
  have hfits := hcfg.window_fits
  refine ⟨?_, hslots', Nat.mod_lt _ hcfg.window_pos, Memory.wf_write hwf _ _, fun c hc => ?_⟩
  · show wordValue (toWord (wordValue s.vwe.vsum - countValue (s.vwe.buf.read s.vwe.cur) + countValue s.vwe.cnt)) = _
    rw [hvalue]
    exact wordValue_toWord (by omega) (by omega)
  · rcases Memory.mem_write hc with rfl | hold
    · exact hcur
    · exact hextent c hold

/-! ### The tick (10_state.md R45 (g), (i)) -/

/-- A tick that ends Hard meets the latches' clauses by what it writes, so it needs the other clauses alone. -/
theorem hardTick_inv {c : FaultCause} (hc : c ≠ .noFault) (hwindow : s.WindowInv) (hdecoder : s.DecoderInv)
    (hpid : s.PidInv) (hframer : s.FramerInv) : (hardTick s c).Inv := by
  obtain ⟨hintegral, hsetpoint, -, herror⟩ := hpid
  exact ⟨hwindow, hdecoder, ⟨hintegral, hsetpoint, Nat.zero_le _, herror⟩,
    ⟨fun _ => ⟨rfl, rfl⟩, fun _ => ⟨rfl, rfl⟩, ⟨fun _ => hc, fun _ => rfl⟩, nofun⟩, hframer⟩

theorem faultyTick_inv (h : s.Inv) : (faultyTick s).Inv := by
  obtain ⟨hwindow, hdecoder, hpid, ⟨-, hpidZero, hcause, hbound⟩, hframer⟩ := h
  rcases faultyTick_cases s with ⟨-, e⟩ | ⟨-, e⟩ <;> rw [e]
  · exact ⟨hwindow, hdecoder, hpid, ⟨nofun, hpidZero, hcause, hbound⟩, hframer⟩
  · exact hardTick_inv nofun hwindow hdecoder hpid hframer

theorem normalTick_inv (h : s.Inv) (hcnt : s.vwe.cnt ≠ countSentinel) : (normalTick s).Inv := by
  obtain ⟨hwindow, hdecoder, hpid, ⟨-, hpidZero, hcause, -⟩, hframer⟩ := h
  have hslid := slideWindow_windowInv hwindow hcnt
  rcases normalTick_cases s with ⟨-, e⟩ | ⟨hbound, e⟩ <;> rw [e]
  · exact hardTick_inv nofun hslid hdecoder hpid hframer
  · have hwithin : (wordValue (slideWindow s).vwe.vsum).natAbs ≤ s.par.windowLength * s.par.maxPerTickCount :=
      Nat.le_of_not_lt (of_decide_eq_false hbound)
    exact ⟨hslid, hdecoder, hpid, ⟨nofun, hpidZero, hcause, fun _ => hwithin⟩, hframer⟩

theorem tickUpdate_inv (hs : s.Inv) (h : tickUpdate s = .next t) : t.Inv := by
  have hticked : s.ticked.Inv := hs
  obtain ⟨-, ⟨-, rfl⟩ | ⟨hcnt, -, rfl⟩⟩ := tickUpdate_eq_next h
  · exact faultyTick_inv hticked
  · exact normalTick_inv hticked hcnt

/-! ### The controller (10_state.md R45 (f), 42_pid.md R185) -/

theorem wordValue_mem (v : Word) : -2 ^ 31 ≤ wordValue v ∧ wordValue v < 2 ^ 31 :=
  ⟨BitVec.le_toInt v, BitVec.toInt_lt⟩

/-- A value clamped to ±`b` is stored exactly in a 32-bit register that holds `b`, and stays within ±`b`. -/
theorem wordValue_toWord_clamp_natAbs_le (v : Int) {b : Nat} (hb : b < 2 ^ 31) :
    (wordValue (toWord (clamp v (-b) b))).natAbs ≤ b := by
  have hclamp := clamp_mem (v := v) (lo := -(b : Int)) (hi := b) (by omega)
  rw [wordValue_toWord (by omega) (by omega)]
  omega

theorem pidUpdate_pidInv {current : Int} (h : s.PidInv) (hlow : -2 ^ 31 ≤ current) (hhigh : current < 2 ^ 31) :
    (pidUpdate s current).PidInv := by
  obtain ⟨-, hsetpoint, -, -⟩ := h
  have hcfg := par_bounds s
  have hset := hcfg.setpoint_fits
  have herror : (pidError s current).natAbs ≤ s.par.setpointMax + 2 ^ 31 := by unfold pidError; omega
  refine ⟨wordValue_toWord_clamp_natAbs_le _ hcfg.iBound_fits, hsetpoint,
    wordValue_toWord_clamp_natAbs_le _ hcfg.throttle_fits, ?_⟩
  show (dwordValue (toDWord (pidError s current))).natAbs ≤ _
  rw [dwordValue_toDWord (by omega) (by omega)]
  exact herror

/-- A control step of the Operational state keeps the invariant: the latches' clauses about the controller ask
nothing there. -/
theorem pidUpdate_inv (v : Word) (hs : s.Inv) (hfault : s.status.fault = false) :
    (pidUpdate s (wordValue v)).Inv := by
  obtain ⟨hwindow, hdecoder, hpid, ⟨hhard, -, hcause, hbound⟩, hframer⟩ := hs
  obtain ⟨hlow, hhigh⟩ := wordValue_mem v
  exact ⟨hwindow, hdecoder, pidUpdate_pidInv hpid hlow hhigh,
    ⟨hhard, fun h => absurd (hfault.symm.trans h) nofun, hcause, hbound⟩, hframer⟩

theorem setpointUpdate_inv (v : Word) (hs : s.Inv) (hfault : s.status.fault = false) : (setpointUpdate v s).Inv := by
  obtain ⟨hwindow, hdecoder, ⟨hintegral, hsetpoint, hout, herror⟩, ⟨hhard, hpidZero, hcause, hbound⟩, hframer⟩ := hs
  rcases setpointUpdate_cases v s with ⟨hrange, e⟩ | ⟨-, e⟩ <;> rw [e]
  · exact ⟨hwindow, hdecoder, ⟨hintegral, hrange, hout, herror⟩,
      ⟨hhard, fun h => absurd (hfault.symm.trans h) nofun, hcause, hbound⟩, hframer⟩
  · exact ⟨hwindow, hdecoder, ⟨hintegral, hsetpoint, Nat.zero_le _, herror⟩,
      ⟨fun h => ⟨rfl, (hhard h).2⟩, fun _ => ⟨rfl, rfl⟩, ⟨nofun, fun _ => rfl⟩, nofun⟩, hframer⟩

theorem controlAfterTick_inv (hs : s.Inv) : (controlAfterTick s).Inv := by
  unfold controlAfterTick
  split
  · exact hs
  · rename_i hfault
    exact pidUpdate_inv s.vwe.velOut hs (by simpa using hfault)

theorem execCtick_inv (hs : s.Inv) (h : execCtick s = .next t) : t.Inv := by
  rcases execCtick_eq_next h with ⟨-, rfl⟩ | ⟨-, u, htick, rfl⟩
  · exact hs
  · exact controlAfterTick_inv (tickUpdate_inv hs htick)

/-! ### The decoder (10_state.md R45 (e)) -/

theorem hallUpdate_decoderInv {r : HallReading} (hs : s.DecoderInv) (h : hallUpdate r s = .next t) :
    t.DecoderInv := by
  rcases hallUpdate_eq_next h with ⟨-, hvalid, rfl⟩ | ⟨-, -, rfl⟩ | ⟨-, -, rfl⟩
  · exact fun _ => hvalid
  · exact hs
  · intro hseeded
    show validReading (if validReading r then r else s.htc.prev) = true
    split
    · assumption
    · exact hs hseeded

/-- `HALL` changes the decoder and the per-tick count; the other clauses of the invariant speak of neither. -/
theorem hallUpdate_inv {r : HallReading} (hs : s.Inv) (h : hallUpdate r s = .next t) : t.Inv := by
  obtain ⟨hwindow, hdecoder, hpid, hlatch, hframer⟩ := hs
  have hdecoder' := hallUpdate_decoderInv hdecoder h
  rcases hallUpdate_eq_next h with ⟨-, -, rfl⟩ | ⟨-, -, rfl⟩ | ⟨-, -, rfl⟩ <;>
    exact ⟨hwindow, hdecoder', hpid, hlatch, hframer⟩

/-! ### Reset, every instruction, every step -/

theorem resetWith_inv (c : Config) : (State.resetWith c).Inv := by
  have hcfg := configBounds_of_ok c.property
  have hslots : ∀ i < c.val.windowLength, (slotValue [] i).natAbs ≤ countMax := fun i _ => Nat.zero_le _
  have hsum : ∀ n, windowSum [] n = 0 := fun n => by
    induction n with
    | zero => rfl
    | succ n ih => rw [windowSum, ih]; rfl
  exact ⟨⟨(hsum _).symm, hslots, hcfg.window_pos, (State.resetWith_memory_wf c).1, nofun⟩, nofun,
    ⟨Nat.zero_le _, Nat.zero_le _, Nat.zero_le _, Nat.zero_le _⟩,
    ⟨nofun, nofun, ⟨nofun, fun h => absurd rfl h⟩, fun _ => Nat.zero_le _⟩,
    ⟨Nat.zero_le _, (State.resetWith_memory_wf c).2, nofun, nofun, nofun⟩⟩

theorem restoreReset_inv (s : State) : s.restoreReset.Inv := resetWith_inv s.cfg

theorem exec_inv {i : Instr} (hs : s.Inv) (h : exec i s = .next t) : t.Inv := by
  cases hi : isFramerOp i with
  | true => exact inv_of_sameMotor hs (exec_framer_sameMotor hi h) (exec_framer_framerInv hi (framerInv_of_inv hs) h)
  | false =>
    cases i with
    | nop => cases h; exact hs
    | hall r => exact gated_next_elim (P := State.Inv) h hs fun _ => hallUpdate_inv hs
    | tick => exact gated_next_elim (P := State.Inv) h hs fun _ => tickUpdate_inv hs
    | setpt v => exact gated_pure_elim (P := State.Inv) h hs (setpointUpdate_inv v hs)
    | pidstep current =>
      exact gated_pure_elim (P := State.Inv) (f := fun v => pidUpdate v (wordValue current)) h hs
        (pidUpdate_inv current hs)
    | ctick => exact execCtick_inv hs h
    | reservedC => cases h; exact hs
    | reservedD => cases h; exact hs
    | reservedE => cases h; exact hs
    | reset => cases h; exact restoreReset_inv s
    | _ => cases hi

theorem receiveBytes_inv {bytes : List Byte} (hs : s.Inv) (h : receiveBytes bytes s = .next t) : t.Inv :=
  inv_of_sameMotor hs (receiveBytes_sameMotor h) (receiveBytes_framerInv (framerInv_of_inv hs) h)

/-! ### Completion: nothing under the invariant stops the machine -/

theorem hallUpdate_completes (r : HallReading) (hs : s.DecoderInv) : ∃ t, hallUpdate r s = .next t := by
  unfold hallUpdate
  split
  · exact ⟨_, rfl⟩
  · rename_i hseeded
    have hvalid : validReading s.htc.prev = true := hs (by simpa using hseeded)
    exact ⟨_, if_neg fun h => Bool.noConfusion (hvalid.symm.trans h.2)⟩

/-- The window clause gives the tick its slot, the latch clause that `err` is not Hard. -/
theorem tickUpdate_completes (hs : s.Inv) (hfault : s.status.fault = false) : ∃ t, tickUpdate s = .next t := by
  obtain ⟨⟨-, -, hcur, -⟩, -, -, ⟨hhard, -⟩, -⟩ := hs
  have herr : s.vwe.err ≠ .hard := fun e => absurd (hfault.symm.trans (hhard e).1) nofun
  simp only [tickUpdate, if_neg herr]
  split
  · exact ⟨_, rfl⟩
  · exact ⟨_, if_pos hcur⟩

theorem feedByte_completes (b : Byte) (hs : s.FramerInv) : ∃ t, feedByte b s = .next t := by
  have hrem := (receiverInv_of_framerInv hs).1
  unfold feedByte
  cases hstate : s.rx.state with
  | params => exact ⟨_, if_neg (hrem hstate)⟩
  | _ => exact ⟨_, rfl⟩

theorem feedBytes_completes (bytes : List Byte) (hs : s.FramerInv) : ∃ t, feedBytes bytes s = .next t := by
  induction bytes generalizing s with
  | nil => exact ⟨_, rfl⟩
  | cons b bs ih =>
    obtain ⟨u, hu⟩ := feedByte_completes b hs
    obtain ⟨t, ht⟩ := ih (feedByte_framerInv hs hu)
    exact ⟨t, andThen_eq_next.2 ⟨u, hu, ht⟩⟩

theorem execRxbyte_completes (b : Byte) (hs : s.FramerInv) : ∃ t, execRxbyte b s = .next t :=
  gated_completes fun _ => feedByte_completes b hs

theorem receiveBytes_completes (bytes : List Byte) (hs : s.FramerInv) : ∃ t, receiveBytes bytes s = .next t := by
  induction bytes generalizing s with
  | nil => exact ⟨_, rfl⟩
  | cons b bs ih =>
    obtain ⟨u, hu⟩ := execRxbyte_completes b hs
    obtain ⟨t, ht⟩ := ih (execRxbyte_framerInv hs hu)
    exact ⟨t, andThen_eq_next.2 ⟨u, hu, ht⟩⟩

theorem execCtick_completes (hs : s.Inv) : ∃ t, execCtick s = .next t :=
  gated_completes fun hfault => by
    obtain ⟨u, hu⟩ := tickUpdate_completes hs hfault
    exact ⟨controlAfterTick u, andThen_eq_next.2 ⟨u, hu, rfl⟩⟩

theorem exec_completes (i : Instr) (hs : s.Inv) : ∃ t, exec i s = .next t := by
  have ⟨_, hdecoder, _, _, hframer⟩ := hs
  cases i with
  | nop => exact ⟨_, rfl⟩
  | hall r => exact gated_completes fun _ => hallUpdate_completes r hdecoder
  | tick => exact gated_completes (tickUpdate_completes hs)
  | setpt v => exact gated_pure_completes
  | pidstep current => exact gated_pure_completes (f := fun v => pidUpdate v (wordValue current))
  | ctick => exact execCtick_completes hs
  | ppush b => exact gated_pure_completes
  | pclr => exact gated_pure_completes
  | build id instr => exact gated_pure_completes
  | rxarm id => exact gated_pure_completes
  | rxbyte b => exact execRxbyte_completes b hframer
  | rxtmo => exact gated_pure_completes
  | reservedC => exact ⟨_, rfl⟩
  | reservedD => exact ⟨_, rfl⟩
  | reservedE => exact ⟨_, rfl⟩
  | reset => exact ⟨_, rfl⟩
  | pktWrite id params => exact gated_pure_completes
  | pktRegWrite id params => exact gated_pure_completes
  | pktAction id params => exact gated_pure_completes
  | pktFactoryReset id params => exact gated_pure_completes
  | pktStatus id params crc => exact gated_completes fun _ => feedBytes_completes _ hframer

/-! ### The counters (10_state.md R28, R29) -/

/-- The tick counter and the soft-error counter are the same in both states. -/
structure SameCounters (s t : State) : Prop where
  ticks : t.vwe.ticks = s.vwe.ticks
  softErrCnt : t.vwe.softErrCnt = s.vwe.softErrCnt

theorem SameCounters.refuse (s : State) : SameCounters s s.refuse := ⟨rfl, rfl⟩

theorem SameMotor.sameCounters (h : SameMotor s t) : SameCounters s t := ⟨by rw [h.vwe], by rw [h.vwe]⟩

theorem hallUpdate_sameCounters {r : HallReading} (h : hallUpdate r s = .next t) : SameCounters s t := by
  rcases hallUpdate_eq_next h with ⟨-, -, rfl⟩ | ⟨-, -, rfl⟩ | ⟨-, -, rfl⟩ <;> exact ⟨rfl, rfl⟩

theorem setpointUpdate_sameCounters (v : Word) (s : State) : SameCounters s (setpointUpdate v s) := by
  rcases setpointUpdate_cases v s with ⟨-, e⟩ | ⟨-, e⟩ <;> rw [e] <;> exact ⟨rfl, rfl⟩

/-- The window unit after the PID step of `CTICK` is as the tick left it. -/
theorem controlAfterTick_vwe (s : State) : (controlAfterTick s).vwe = s.vwe := by
  unfold controlAfterTick
  split <;> rfl

/-- A performed `TICK` or `CTICK` leaves the window unit as the tick's lines do. -/
theorem exec_tick_or_ctick_vwe {i : Instr} (hi : i = .tick ∨ i = .ctick) (hfault : s.status.fault = false)
    (h : exec i s = .next t) : ∃ u, tickUpdate s = .next u ∧ t.vwe = u.vwe := by
  rcases hi with rfl | rfl
  · exact ⟨t, (gated_of_operational hfault).symm.trans h, rfl⟩
  · rcases execCtick_eq_next h with ⟨hfault', -⟩ | ⟨-, u, htick, rfl⟩
    · exact absurd (hfault.symm.trans hfault') nofun
    · exact ⟨u, htick, controlAfterTick_vwe u⟩

/-- Every other instruction but `RESET`, and every refused one, leaves both counters. -/
theorem exec_sameCounters {i : Instr} (hreset : i ≠ .reset)
    (hi : s.status.fault = true ∨ (i ≠ .tick ∧ i ≠ .ctick)) (h : exec i s = .next t) : SameCounters s t := by
  cases hframer : isFramerOp i with
  | true => exact (exec_framer_sameMotor hframer h).sameCounters
  | false =>
    cases i with
    | nop => cases h; exact ⟨rfl, rfl⟩
    | hall r => exact gated_next_elim h (.refuse s) fun _ => hallUpdate_sameCounters
    | tick => exact gated_next_elim h (.refuse s) fun hfault => by simp [hfault] at hi
    | setpt v => exact gated_pure_elim h (.refuse s) fun _ => setpointUpdate_sameCounters v s
    | pidstep current =>
      exact gated_pure_elim (f := fun v => pidUpdate v (wordValue current)) h (.refuse s) fun _ => ⟨rfl, rfl⟩
    | ctick =>
      rcases execCtick_eq_next h with ⟨-, rfl⟩ | ⟨hfault, -⟩
      · exact .refuse s
      · simp [hfault] at hi
    | reservedC => cases h; exact ⟨rfl, rfl⟩
    | reservedD => cases h; exact ⟨rfl, rfl⟩
    | reservedE => cases h; exact ⟨rfl, rfl⟩
    | reset => exact absurd rfl hreset
    | _ => cases hframer

theorem tickUpdate_ticks (h : tickUpdate s = .next t) : t.vwe.ticks = wrappingSucc s.vwe.ticks := by
  obtain ⟨-, ⟨-, rfl⟩ | ⟨-, -, rfl⟩⟩ := tickUpdate_eq_next h
  · rcases faultyTick_cases s.ticked with ⟨-, e⟩ | ⟨-, e⟩ <;> exact congrArg (fun u => u.vwe.ticks) e
  · rcases normalTick_cases s.ticked with ⟨-, e⟩ | ⟨-, e⟩ <;> exact congrArg (fun u => u.vwe.ticks) e

/-- The one way a tick moves the soft-error counter: it takes `err` from None to Soft (41_velocity_window.md R154). -/
theorem tickUpdate_softErrCnt (h : tickUpdate s = .next t) :
    (s.vwe.err = .none ∧ s.vwe.cnt = countSentinel ∧ t.vwe.err = .soft
      ∧ t.vwe.softErrCnt = saturatingSucc s.vwe.softErrCnt)
    ∨ ((s.vwe.err ≠ .none ∨ s.vwe.cnt ≠ countSentinel) ∧ t.vwe.softErrCnt = s.vwe.softErrCnt) := by
  obtain ⟨-, ⟨hcnt, rfl⟩ | ⟨hcnt, -, rfl⟩⟩ := tickUpdate_eq_next h
  · rcases faultyTick_cases s.ticked with ⟨herr, e⟩ | ⟨herr, e⟩ <;> rw [e]
    · exact .inl ⟨herr, hcnt, rfl, rfl⟩
    · exact .inr ⟨.inl herr, rfl⟩
  · refine .inr ⟨.inr hcnt, ?_⟩
    rcases normalTick_cases s.ticked with ⟨-, e⟩ | ⟨-, e⟩ <;> exact congrArg (fun u => u.vwe.softErrCnt) e

theorem wrappingSucc_toNat (n : Word) : (wrappingSucc n).toNat = (n.toNat + 1) % 2 ^ 32 := by
  simp [wrappingSucc]

theorem saturatingSucc_toNat (n : Word) : (saturatingSucc n).toNat = min (n.toNat + 1) (2 ^ 32 - 1) := by
  rw [saturatingSucc, BitVec.toNat_ofNat]
  omega

/-! ### The obligations -/

/-- Settles O54: whatever a step runs keeps the invariant, and taking the input from the port does not touch it. -/
theorem stepKeepsInvariant : Obligations.StepKeepsInvariant := by
  intro s t hs h
  rcases step_eq_next h with ⟨-, rfl⟩ | ⟨rest, -, rfl⟩ | ⟨r, rest, i, -, -, hexec⟩ | ⟨bytes, rest, e, -, -, hreceive⟩
  · exact hs
  · exact restoreReset_inv _
  · exact exec_inv (s := { s with port := rest }) hs hexec
  · exact receiveBytes_inv (s := { s with port := rest }) hs hreceive

/-- Settles O28, by what the tick's own lines do and the frame of every other instruction. -/
theorem ticksCountsPerformedTicks : Obligations.TicksCountsPerformedTicks := by
  intro i s t h
  refine ⟨fun hfault hi => ?_, fun hi => ?_, fun hreset hi => (exec_sameCounters hreset hi h).ticks⟩
  · obtain ⟨u, htick, evwe⟩ := exec_tick_or_ctick_vwe hi hfault h
    rw [evwe, tickUpdate_ticks htick, wrappingSucc_toNat]
  · subst hi; cases h; rfl

/-- Settles O29: a performed tick is the case of R154 that moves the counter or leaves it, and nothing else moves it. -/
theorem softErrorCounterCountsNoneToSoft : Obligations.SoftErrorCounterCountsNoneToSoft := by
  intro i s t h
  refine ⟨fun hfault hi herr hcnt => ?_, fun hi => ?_, fun hreset hsoft => ?_⟩
  · obtain ⟨u, htick, evwe⟩ := exec_tick_or_ctick_vwe hi hfault h
    rcases tickUpdate_softErrCnt htick with ⟨-, -, hsoft, hcount⟩ | ⟨herr' | hcnt', -⟩
    · rw [evwe, hcount, saturatingSucc_toNat]
      exact ⟨hsoft, rfl⟩
    · exact absurd herr herr'
    · exact absurd hcnt hcnt'
  · subst hi; cases h; rfl
  · by_cases hi : s.status.fault = true ∨ (i ≠ .tick ∧ i ≠ .ctick)
    · exact (exec_sameCounters hreset hi h).softErrCnt
    · obtain ⟨hfault, htickOp⟩ : s.status.fault = false ∧ (i = .tick ∨ i = .ctick) := by
        simpa only [not_or, not_and_or, not_not, Bool.not_eq_true] using hi
      obtain ⟨u, htick, evwe⟩ := exec_tick_or_ctick_vwe htickOp hfault h
      rw [evwe] at hsoft ⊢
      rcases tickUpdate_softErrCnt htick with ⟨herr, -, hsoft', -⟩ | ⟨-, hcount⟩
      · exact absurd ⟨herr, hsoft'⟩ hsoft
      · exact hcount

/-- Settles O60: a step idles, resets, runs an instruction or receives bytes, and each completes. -/
theorem everyStepCompletes : Obligations.EveryStepCompletes := by
  intro s hs
  rcases step_cases s with ⟨-, e⟩ | ⟨rest, -, e⟩ | ⟨r, rest, i, -, -, e⟩ | ⟨bytes, rest, d, -, -, e⟩ <;> rw [e]
  · exact ⟨_, rfl⟩
  · exact ⟨_, rfl⟩
  · exact exec_completes (s := { s with port := rest }) i hs
  · exact receiveBytes_completes (s := { s with port := rest }) bytes (framerInv_of_inv hs)

/-- Settles O56: a step that completes has not stopped in a fault. -/
theorem invariantExcludesModelFaults : Obligations.InvariantExcludesModelFaults := by
  rintro s hs ⟨f, hf⟩
  obtain ⟨t, ht⟩ := everyStepCompletes s hs
  exact absurd (hf.symm.trans ht) nofun

/-- Settles O6: there is no input to take. -/
theorem idleStepChangesNothing : Obligations.IdleStepChangesNothing := by
  intro s hport
  simp only [step, State.nextInput, hport]

/-- Settles O55: the power-on state meets the invariant in every configuration, the hardware's among them. -/
theorem resetMeetsInvariant : Obligations.ResetMeetsInvariant :=
  ⟨resetWith_inv, resetWith_inv Config.hardware⟩

end Sys2Proof.Proofs.Registers
end

section
/-! PROOFS. The statements of spec/20_memory.md: a sensor event that coincides with a tick is performed first (R75),
and a framer operation and a motor operation that does not fault commute (R74). -/

namespace Sys2Proof.Proofs.Concurrency

open Sys2Proof Sys2Proof.Machine Sys2Proof.Proofs.Scope

variable {s t u : State}

/-! ### A sensor event and a tick presented together (20_memory.md R75) -/

theorem decode_encode_hall (r : HallReading) : decode (encode (.hall r)) = .ok (.hall r) := by
  revert r; decide

theorem decode_encode_tickOp {i : Instr} (hi : i = .tick ∨ i = .ctick) : decode (encode i) = .ok i := by
  rcases hi with rfl | rfl <;> rfl

/-- The queue of a reading and a tick operation presented together at an empty port. -/
theorem presentTogether_port (hport : s.port = []) (r : HallReading) (i : Instr) :
    (s.presentTogether r i).port = [.request (encode (.hall r)), .request (encode i)] := by
  simp [State.presentTogether, hport]

/-- Settles O8: `HALL` stands at the head of the queue and leaves the rest of it, so the next step finds the tick. -/
theorem coincidentSensorEventGoesFirst : Obligations.CoincidentSensorEventGoesFirst := by
  intro s t r tickOp hport htick hstep
  have hhall : exec (.hall r) { s with port := [.request (encode tickOp)] } = .next t :=
    (step_of_decoded (presentTogether_port hport r tickOp) (decode_encode_hall r)).symm.trans hstep
  have hwaits : t.port = [.request (encode tickOp)] := (exec_keeps_setting hhall).port
  exact ⟨hwaits, hhall, step_of_decoded hwaits (decode_encode_tickOp htick)⟩

/-! ### Another framer half (43_packet_framer.md R226)

The framer's registers and `op_ok` of one state put into another. A motor operation does not see the exchange, and a
framer operation sees nothing else, so each operation commutes with it; the two orders of R74 then meet. -/

/-- The state `s` with the framer half and `op_ok` of `x`. -/
def withFramer (s x : State) : State :=
  { s with tx := x.tx, rx := x.rx, status := { s.status with opOk := x.status.opOk } }

theorem withFramer_self (s : State) : withFramer s s = s := rfl

/-- No operation reads `op_ok` (30_encoding.md R96): each writes it, and a reset restores it. -/
theorem exec_perform (i : Instr) (s : State) : exec i s.perform = exec i s := by
  cases i <;> rfl

/-- Two Operational states whose ungated lines correspond correspond under the gate. -/
theorem gated_transfer {k : State → Result} {m v : State} (hs : s.status.fault = false) (hm : m.status.fault = false)
    (h : gated s k = .next t) (hk : k s = .next t → k m = .next v) : gated m k = .next v :=
  (gated_of_operational hm).trans (hk ((gated_of_operational hs).symm.trans h))

/-- The same for ungated lines that always complete. -/
theorem gated_pure_transfer {f g : State → State} {m : State} (hs : s.status.fault = false)
    (hm : m.status.fault = false) (h : gated s (fun v => .next (f v)) = .next t) (hf : f m = g (f s)) :
    gated m (fun v => .next (f v)) = .next (g t) :=
  gated_transfer hs hm h fun hnext => by cases hnext; exact congrArg _ hf

/-! ### The motor operations with another framer half -/

theorem hallUpdate_withFramer {r : HallReading} (x : State) (h : hallUpdate r s = .next t) :
    hallUpdate r (withFramer s x) = .next (withFramer t x.perform) := by
  have hhtc : (withFramer s x).htc = s.htc := rfl
  rcases hallUpdate_eq_next h with ⟨hseeded, hvalid, rfl⟩ | ⟨hseeded, hvalid, rfl⟩ | ⟨hseeded, hprev, rfl⟩
  · simp only [hallUpdate, hhtc, hseeded, hvalid, if_true]; rfl
  · simp only [hallUpdate, hhtc, hseeded, hvalid, if_true]; rfl
  · have hentry : ¬ (validReading r = true ∧ validReading s.htc.prev = false) := fun ⟨hr, hp⟩ =>
      Bool.noConfusion ((hprev hr).symm.trans hp)
    simp only [hallUpdate, hhtc, hseeded, if_neg hentry]; rfl

theorem faultyTick_withFramer (s x : State) : faultyTick (withFramer s x) = withFramer (faultyTick s) x := by
  rcases faultyTick_cases s with ⟨herr, e⟩ | ⟨herr, e⟩ <;> rw [e]
  · exact if_pos herr
  · exact if_neg herr

theorem normalTick_withFramer (s x : State) : normalTick (withFramer s x) = withFramer (normalTick s) x := by
  rcases normalTick_cases s with ⟨hbound, e⟩ | ⟨hbound, e⟩ <;> rw [e]
  · exact if_pos hbound
  · exact if_neg (Bool.eq_false_iff.1 hbound)

theorem tickUpdate_withFramer (x : State) (h : tickUpdate s = .next t) :
    tickUpdate (withFramer s x) = .next (withFramer t x.perform) := by
  have hticked : (withFramer s x).ticked = withFramer s.ticked x.perform := rfl
  obtain ⟨herr, ⟨hcnt, rfl⟩ | ⟨hcnt, hcur, rfl⟩⟩ := tickUpdate_eq_next h
  · rw [← faultyTick_withFramer, ← hticked]
    exact (if_neg herr).trans (if_pos hcnt)
  · rw [← normalTick_withFramer, ← hticked]
    exact (if_neg herr).trans ((if_neg hcnt).trans (if_pos hcur))

theorem setpointUpdate_withFramer (v : Word) (s x : State) :
    setpointUpdate v (withFramer s x) = withFramer (setpointUpdate v s) x.perform := by
  rcases setpointUpdate_cases v s with ⟨hrange, e⟩ | ⟨hrange, e⟩ <;> rw [e]
  · exact if_neg (Nat.not_lt.2 hrange)
  · exact if_pos hrange

theorem pidUpdate_withFramer (s x : State) (current : Int) :
    pidUpdate (withFramer s x) current = withFramer (pidUpdate s current) x.perform := rfl

theorem controlAfterTick_withFramer (s x : State) :
    controlAfterTick (withFramer s x.perform) = withFramer (controlAfterTick s) x.perform := by
  have hlatch : (withFramer s x.perform).status.fault = s.status.fault := rfl
  cases hfault : s.status.fault with
  | false => simp only [controlAfterTick, hlatch, hfault, Bool.false_eq_true, if_false]; rfl
  | true => simp only [controlAfterTick, hlatch, hfault, if_true]

theorem execCtick_withFramer (x : State) (hfault : s.status.fault = false) (h : execCtick s = .next t) :
    execCtick (withFramer s x) = .next (withFramer t x.perform) :=
  gated_transfer (m := withFramer s x) hfault hfault h fun hnext => by
    obtain ⟨u, htick, hcontrol⟩ := andThen_eq_next.1 hnext
    cases hcontrol
    rw [tickUpdate_withFramer x htick, andThen_next, controlAfterTick_withFramer]

/-- A motor operation performed with another framer half does the same, and leaves that half as it is. -/
theorem exec_motor_withFramer {j : Instr} (x : State) (hj : isMotorOp j = true) (hfault : s.status.fault = false)
    (h : exec j s = .next t) : exec j (withFramer s x) = .next (withFramer t x.perform) := by
  have hfault' : (withFramer s x).status.fault = false := hfault
  cases j with
  | hall r => exact gated_transfer hfault hfault' h (hallUpdate_withFramer x)
  | tick => exact gated_transfer hfault hfault' h (tickUpdate_withFramer x)
  | setpt v =>
    exact gated_pure_transfer (g := (withFramer · x.perform)) hfault hfault' h (setpointUpdate_withFramer v s x)
  | pidstep current =>
    exact gated_pure_transfer (f := (pidUpdate · (wordValue current))) (g := (withFramer · x.perform))
      hfault hfault' h (pidUpdate_withFramer s x _)
  | ctick => exact execCtick_withFramer x hfault h
  | _ => cases hj

/-! ### The framer operations on another motor half

The motor half is that of a state `m` of the same configuration, which is all the framer reads besides its own half. -/

section
variable {m : State}

theorem stageByte_withFramer (b : Byte) (m s : State) :
    stageByte b (withFramer m s) = withFramer m (stageByte b s) := by
  rcases stageByte_cases b s with ⟨hroom, e⟩ | ⟨hfull, e⟩ <;> rw [e]
  · exact dif_pos hroom
  · exact dif_neg (by simp [withFramer, hfull])

theorem stageBytes_withFramer (params : List Byte) (m s : State) :
    stageBytes params (withFramer m s) = withFramer m (stageBytes params s) := by
  induction params generalizing s with
  | nil => rfl
  | cons b bs ih => rw [stageBytes_cons, stageBytes_cons, stageByte_withFramer, ih]

theorem buildPacket_withFramer (id instr : Byte) (hcfg : m.cfg = s.cfg) :
    buildPacket id instr (withFramer m s) = withFramer m (buildPacket id instr s) := by
  have hpar : (withFramer m s).par = s.par := congrArg Subtype.val hcfg
  simp only [buildPacket, hpar]; rfl

theorem armReceiver_withFramer (id : Byte) (hcfg : m.cfg = s.cfg) :
    armReceiver id (withFramer m s) = withFramer m (armReceiver id s) := by
  have hpar : (withFramer m s).par = s.par := congrArg Subtype.val hcfg
  simp only [armReceiver, hpar]; rfl

theorem sendPacket_withFramer (id instr : Byte) (params : List Byte) (hcfg : m.cfg = s.cfg) :
    sendPacket id instr params (withFramer m s) = withFramer m (sendPacket id instr params s) := by
  have hstaged : stageBytes params (clearStaging (withFramer m s))
      = withFramer m (stageBytes params (clearStaging s)) :=
    stageBytes_withFramer params m (clearStaging s)
  have hcfg' : m.cfg = (stageBytes params (clearStaging s)).cfg :=
    hcfg.trans (stageBytes_frame params (clearStaging s)).1.symm
  simp only [sendPacket, hstaged, buildPacket_withFramer id instr hcfg']
  split
  · rfl
  · exact armReceiver_withFramer id hcfg'

theorem receiveTimeout_withFramer (m s : State) :
    receiveTimeout (withFramer m s) = withFramer m (receiveTimeout s) := by
  rcases receiveTimeout_cases s with ⟨hended, e⟩ | ⟨hidle, hdone, e⟩ <;> rw [e]
  · exact if_pos hended
  · exact if_neg (not_or.2 ⟨hidle, hdone⟩)

theorem feedByte_withFramer {b : Byte} (hcfg : m.cfg = s.cfg) (h : feedByte b s = .next t) :
    feedByte b (withFramer m s) = .next (withFramer m t) := by
  have hrx : (withFramer m s).rx = s.rx := rfl
  have hpar : (withFramer m s).par = s.par := congrArg Subtype.val hcfg
  cases hstate : s.rx.state <;> simp only [feedByte, hstate] at h
  case params =>
    split at h
    · cases h
    · rename_i hrem
      cases h
      simp only [feedByte, hrx, hpar, hstate, if_neg hrem]; rfl
  all_goals cases h; simp only [feedByte, hrx, hpar, hstate]; rfl

theorem feedBytes_withFramer {bytes : List Byte} (hcfg : m.cfg = s.cfg) (h : feedBytes bytes s = .next t) :
    feedBytes bytes (withFramer m s) = .next (withFramer m t) := by
  induction bytes generalizing s with
  | nil => cases h; rfl
  | cons b bs ih =>
    obtain ⟨u, hu, ht⟩ := andThen_eq_next.1 h
    have hcfg' : m.cfg = u.cfg := hcfg.trans (feedByte_keeps_setting hu).cfg.symm
    exact andThen_eq_next.2 ⟨withFramer m u, feedByte_withFramer hcfg hu, ih hcfg' ht⟩

/-- A framer operation performed on another motor half does the same, and leaves that half as it is. -/
theorem exec_framer_withFramer {i : Instr} (hi : isFramerOp i = true) (hcfg : m.cfg = s.cfg)
    (hfault : s.status.fault = false) (hfault' : m.status.fault = false) (h : exec i s = .next t) :
    exec i (withFramer m s) = .next (withFramer m t) := by
  cases i with
  | ppush b => exact gated_pure_transfer hfault hfault' h (stageByte_withFramer b m s)
  | pclr => exact gated_pure_transfer (g := withFramer m) hfault hfault' h rfl
  | build id instr => exact gated_pure_transfer hfault hfault' h (buildPacket_withFramer id instr hcfg)
  | rxarm id => exact gated_pure_transfer hfault hfault' h (armReceiver_withFramer id hcfg)
  | rxbyte b => exact gated_transfer hfault hfault' h (feedByte_withFramer hcfg)
  | rxtmo => exact gated_pure_transfer hfault hfault' h (receiveTimeout_withFramer m s)
  | pktWrite id params => exact gated_pure_transfer hfault hfault' h (sendPacket_withFramer id _ params hcfg)
  | pktRegWrite id params => exact gated_pure_transfer hfault hfault' h (sendPacket_withFramer id _ params hcfg)
  | pktAction id params => exact gated_pure_transfer hfault hfault' h (sendPacket_withFramer id _ params hcfg)
  | pktFactoryReset id params => exact gated_pure_transfer hfault hfault' h (sendPacket_withFramer id _ params hcfg)
  | pktStatus id params crc => exact gated_transfer hfault hfault' h (feedBytes_withFramer hcfg)
  | _ => cases hi

end

/-! ### The two orders (20_memory.md R74) -/

/-- What a framer operation answers is its start state with the answer's framer half. -/
theorem exec_framer_answer {i : Instr} (hi : isFramerOp i = true) (hfault : s.status.fault = false)
    (h : exec i s = .next t) : t = withFramer s t := by
  have hnext := exec_framer_withFramer hi rfl hfault hfault h
  rw [withFramer_self, h] at hnext
  injection hnext

/-- What a motor operation answers has the framer half of its start state, with `op_ok` set. -/
theorem exec_motor_answer {j : Instr} (hj : isMotorOp j = true) (hfault : s.status.fault = false)
    (h : exec j s = .next t) : t = withFramer t s.perform := by
  have hnext := exec_motor_withFramer s hj hfault h
  rw [withFramer_self, h] at hnext
  injection hnext

/-- Settles O59. With `a` after the framer operation alone and `b` after the motor operation alone, both orders end with
the motor half of `b` and the framer half of `a`. -/
theorem framerAndMotorCommute : Obligations.FramerAndMotorCommute := by
  intro i j s t u hi hj hfault hij hji htfault
  obtain ⟨a, ha, ht⟩ := andThen_eq_next.1 hij
  obtain ⟨b, hb, hu⟩ := andThen_eq_next.1 hji
  obtain ⟨t, ht, ⟨⟩⟩ := andThen_eq_next.1 ht
  obtain ⟨u, hu, ⟨⟩⟩ := andThen_eq_next.1 hu
  have hmotor : exec j a = .next (withFramer b a.perform) := by
    rw [exec_framer_answer hi hfault ha]
    exact exec_motor_withFramer a hj hfault hb
  obtain rfl : t = withFramer b a.perform := by injection ht.symm.trans hmotor
  have hframer : exec i b = .next (withFramer b a) := by
    rw [exec_motor_answer hj hfault hb]
    exact exec_framer_withFramer hi (exec_keeps_setting hb).cfg hfault htfault ((exec_perform i s).trans ha)
  obtain rfl : u = withFramer b a := by injection hu.symm.trans hframer
  rfl

end Sys2Proof.Proofs.Concurrency
end

section
/-! PROOFS. The statements of spec/30_encoding.md: a command word is read by its top four bits (R94), decoding undoes
encoding for command words and packets (R91 to R93, R103 to R107), the worked encodings (R116) and the codes of the
small registers (R98 to R102), the refusals (R96), and `SEND` as a sequence of operations (R113). -/

namespace Sys2Proof.Proofs.Encoding

open Sys2Proof Sys2Proof.Machine Sys2Proof.Proofs.Registers

variable {s t : State}

/-! ### Bit fields -/

/-- A word is its upper bits over its lower bits. -/
theorem append_extractLsb' {n m : Nat} (w : BitVec (n + m)) : w.extractLsb' m n ++ w.extractLsb' 0 m = w :=
  (BitVec.extractLsb'_append_extractLsb'_eq_extractLsb' (Nat.zero_add m).symm).trans BitVec.extractLsb'_eq_self

/-- The upper of two fields is read back. -/
theorem extractLsb'_append_high {n m : Nat} (x : BitVec n) (y : BitVec m) : (x ++ y).extractLsb' m n = x := by
  rw [BitVec.extractLsb'_append_eq_of_le (le_refl m), Nat.sub_self, BitVec.extractLsb'_eq_self]

/-- The lower of two fields is read back. -/
theorem extractLsb'_append_low {n m : Nat} (x : BitVec n) (y : BitVec m) : (x ++ y).extractLsb' 0 m = y := by
  rw [BitVec.extractLsb'_append_eq_of_add_le (Nat.zero_add m).le, BitVec.extractLsb'_eq_self]

/-- A field widened into the data word is read back. -/
theorem extractLsb'_setWidth_self {n m : Nat} (x : BitVec n) (h : n ≤ m) : (x.setWidth m).extractLsb' 0 n = x := by
  rw [BitVec.extractLsb'_setWidth_of_le (by omega), BitVec.extractLsb'_eq_self]

/-! ### The command word (30_encoding.md R91 to R94) -/

theorem commandWord_opField_dataField (w : CommandWord) : commandWord (opField w) (dataField w) = w :=
  append_extractLsb' (n := 4) (m := 32) w

@[simp] theorem opField_commandWord (op : BitVec 4) (d : Word) : opField (commandWord op d) = op :=
  extractLsb'_append_high op d

@[simp] theorem dataField_commandWord (op : BitVec 4) (d : Word) : dataField (commandWord op d) = d :=
  extractLsb'_append_low op d

/-- The rows of R93 with the operand fields of R92: the operation code selects, and the data gives the operands. -/
@[simp] theorem decodeWord_commandWord (d : Word) :
    decodeWord (commandWord 0x0#4 d) = .nop
    ∧ decodeWord (commandWord 0x1#4 d) = .hall (fieldH d)
    ∧ decodeWord (commandWord 0x2#4 d) = .tick
    ∧ decodeWord (commandWord 0x3#4 d) = .setpt d
    ∧ decodeWord (commandWord 0x4#4 d) = .pidstep d
    ∧ decodeWord (commandWord 0x5#4 d) = .ctick
    ∧ decodeWord (commandWord 0x6#4 d) = .ppush (fieldB d)
    ∧ decodeWord (commandWord 0x7#4 d) = .pclr
    ∧ decodeWord (commandWord 0x8#4 d) = .build (fieldB d) (fieldInstr d)
    ∧ decodeWord (commandWord 0x9#4 d) = .rxarm (fieldB d)
    ∧ decodeWord (commandWord 0xA#4 d) = .rxbyte (fieldB d)
    ∧ decodeWord (commandWord 0xB#4 d) = .rxtmo
    ∧ decodeWord (commandWord 0xC#4 d) = .reservedC
    ∧ decodeWord (commandWord 0xD#4 d) = .reservedD
    ∧ decodeWord (commandWord 0xE#4 d) = .reservedE
    ∧ decodeWord (commandWord 0xF#4 d) = .reset := by
  simp [decodeWord]

/-- No command word is a received packet (R90: the two encoding spaces). -/
theorem decodeWord_ne_pktStatus (w : CommandWord) (id : Byte) (params : List Byte) (crc : Half) :
    decodeWord w ≠ .pktStatus id params crc := by
  unfold decodeWord
  split <;> nofun

@[simp] theorem fieldH_setWidth (r : HallReading) : fieldH (r.setWidth 32) = r :=
  extractLsb'_setWidth_self r (by decide)

@[simp] theorem fieldB_setWidth (b : Byte) : fieldB (b.setWidth 32) = b := extractLsb'_setWidth_self b (by decide)

@[simp] theorem fieldB_setWidth_append (instr id : Byte) : fieldB ((instr ++ id).setWidth 32) = id :=
  (BitVec.extractLsb'_setWidth_of_le (by decide)).trans (extractLsb'_append_low instr id)

@[simp] theorem fieldInstr_setWidth_append (instr id : Byte) : fieldInstr ((instr ++ id).setWidth 32) = instr :=
  (BitVec.extractLsb'_setWidth_of_le (by decide)).trans (extractLsb'_append_high instr id)

/-! ### The servo packet (30_encoding.md R103 to R107) -/

theorem ofBytes_lowByte_highByte (h : Half) : ofBytes (lowByte h) (highByte h) = h :=
  append_extractLsb' (n := 8) (m := 8) h

/-- R207 undoes R205 from any match count both are asked at: after `FF FF FD` the byte the one inserts is the byte the
other drops. -/
theorem destuffFrom_stuffFrom {m : Fin 4} (params : List Byte) (hm : m ≠ 3) :
    destuffFrom m (stuffFrom m params).1 = some params := by
  induction params generalizing m with
  | nil => simp [stuffFrom, destuffFrom, hm]
  | cons b bs ih =>
    unfold stuffFrom
    split
    · rename_i hmatch
      simp [destuffFrom, hm, hmatch, ih (m := 0) (by decide)]
    · rename_i hmatch
      simp [destuffFrom, hm, ih hmatch]

theorem packetParams_stuff {params : List Byte} (hfit : paramsFit params = true) :
    packetParams (stuff params).1 = .ok params := by
  have hdestuff : destuff (stuff params).1 = some params := destuffFrom_stuffFrom params (by decide)
  simp only [packetParams, hdestuff, hfit, if_true]

/-- The length field of a packet that fits counts three bytes and the stuffed parameters (R104, R107). -/
theorem lenField_stuff {params : List Byte} (hfit : paramsFit params = true) :
    (lenField params.length (stuff params).2).toNat = 3 + (stuff params).1.length
      ∧ (stuff params).1.length ≤ maxStuffed := by
  obtain ⟨hlength, hcount⟩ := stuffFrom_length 0 params
  have hmax : params.length ≤ 8 := of_decide_eq_true hfit
  simp only [lenField, stuff, BitVec.toNat_ofNat, maxStuffed, maxParams, Fin.val_zero] at *
  omega

/-- A frame's header and length are read, and what follows is its body. -/
theorem decodePacket_framePre (id instr : Byte) {params : List Byte} (tail : List Byte)
    (hfit : paramsFit params = true) :
    decodePacket (framePre id instr params ++ tail)
      = decodeBody id instr (stuff params).1.length ((stuff params).1 ++ tail) := by
  obtain ⟨hlen, hmax⟩ := lenField_stuff hfit
  simp [framePre, header, decodePacket, ofBytes_lowByte_highByte, hlen, Nat.not_lt.2 hmax]

/-- The body of a packet the block sends: its stuffed parameters and nothing after them. -/
theorem decodePacket_sent {id instr : Byte} {params : List Byte} {i : Instr} (hfit : paramsFit params = true)
    (hstatus : instr ≠ statusInstr) (hsent : sentInstr instr id params = some i) :
    decodePacket (framePre id instr params) = .ok i := by
  have hbody := decodePacket_framePre id instr [] hfit
  simp only [List.append_nil] at hbody
  simp [hbody, decodeBody, hstatus, packetParams_stuff hfit, hsent]

/-- The body of a response: its stuffed parameters and the CRC field. -/
theorem decodePacket_status (id : Byte) {params : List Byte} (crc : Half) (hfit : paramsFit params = true) :
    decodePacket (framePre id statusInstr params ++ crcField crc) = .ok (.pktStatus id params crc) := by
  rw [decodePacket_framePre id statusInstr _ hfit]
  simp [decodeBody, crcField, packetParams_stuff hfit, ofBytes_lowByte_highByte]

/-- Settles O1, per instruction: a command word's fields give back its operands, and a packet's frame its body. -/
theorem decodeReadsBackEncode : Obligations.DecodeReadsBackEncode := by
  intro i hwf
  cases i with
  | pktWrite id params => exact decodePacket_sent hwf (by decide) rfl
  | pktRegWrite id params => exact decodePacket_sent hwf (by decide) rfl
  | pktAction id params => exact decodePacket_sent hwf (by decide) rfl
  | pktFactoryReset id params => exact decodePacket_sent hwf (by decide) rfl
  | pktStatus id params crc => exact decodePacket_status id crc hwf
  | _ => simp [encode, decode]

/-! ### What the operations answer about `op_ok` (30_encoding.md R96) -/

/-- Lines that always complete are what the Operational block does. -/
theorem gated_pure_of_operational {f : State → State} (hfault : s.status.fault = false) :
    gated s (fun v => .next (f v)) = .next (f s) := gated_of_operational hfault

theorem eq_of_gated_pure {f : State → State} (hfault : s.status.fault = false)
    (h : gated s (fun v => .next (f v)) = .next t) : t = f s := by
  rw [gated_pure_of_operational hfault] at h
  cases h; rfl

/-- In the Faulted state every instruction but `NOP` and `RESET` is refused (60_exceptions.md R285). -/
theorem exec_of_faulted {i : Instr} (hnop : i ≠ .nop) (hreset : i ≠ .reset) (hfault : s.status.fault = true) :
    exec i s = .next s.refuse := by
  cases i with
  | nop => exact absurd rfl hnop
  | reset => exact absurd rfl hreset
  | reservedC | reservedD | reservedE => rfl
  | _ => apply gated_of_faulted hfault

/-- Below the gate, `HALL` is performed. -/
theorem hallUpdate_performs {r : HallReading} (h : hallUpdate r s = .next t) : t.status.opOk = true := by
  rcases hallUpdate_eq_next h with ⟨-, -, rfl⟩ | ⟨-, -, rfl⟩ | ⟨-, -, rfl⟩ <;> rfl

theorem faultyTick_opOk (s : State) : (faultyTick s).status.opOk = s.status.opOk := by
  rcases faultyTick_cases s with ⟨-, e⟩ | ⟨-, e⟩ <;> exact congrArg (fun u => u.status.opOk) e

theorem normalTick_opOk (s : State) : (normalTick s).status.opOk = s.status.opOk := by
  rcases normalTick_cases s with ⟨-, e⟩ | ⟨-, e⟩ <;> exact congrArg (fun u => u.status.opOk) e

/-- Below the gate, a tick is performed, even one that enters the Faulted state. -/
theorem tickUpdate_performs (h : tickUpdate s = .next t) : t.status.opOk = true := by
  obtain ⟨-, ⟨-, rfl⟩ | ⟨-, -, rfl⟩⟩ := tickUpdate_eq_next h
  · exact faultyTick_opOk _
  · exact normalTick_opOk _

theorem setpointUpdate_performs (v : Word) (s : State) : (setpointUpdate v s).status.opOk = true := by
  rcases setpointUpdate_cases v s with ⟨-, e⟩ | ⟨-, e⟩ <;> rw [e] <;> rfl

theorem controlAfterTick_performs (h : s.status.opOk = true) : (controlAfterTick s).status.opOk = true := by
  unfold controlAfterTick
  split
  · exact h
  · rfl

theorem sendPacket_performs (id instr : Byte) (params : List Byte) (s : State) :
    (sendPacket id instr params s).status.opOk = true :=
  have ⟨_, _, _, _, _, _, _, hop⟩ := sendPacket_frame id instr params s
  hop

/-- The four cases of R96 in which an operation is refused. -/
def Refused (i : Instr) (s : State) : Prop :=
  i = .reservedC ∨ i = .reservedD ∨ i = .reservedE
  ∨ (s.status.fault = true ∧ i ≠ .nop ∧ i ≠ .reset)
  ∨ ((∃ b, i = .ppush b) ∧ s.tx.pn.val = 8)
  ∨ (((∃ b, i = .rxbyte b) ∨ i = .rxtmo) ∧ (s.rx.state = .idle ∨ s.rx.state = .done))

/-- The instruction is refused and only `op_ok` changes, or it is none of the refused ones and `op_ok` is set. -/
def Answers (i : Instr) (s t : State) : Prop := (Refused i s ∧ t = s.refuse) ∨ (¬ Refused i s ∧ t.status.opOk = true)

theorem exec_answers_of_faulted {i : Instr} (hfault : s.status.fault = true) (h : exec i s = .next t) :
    Answers i s t := by
  by_cases hnop : i = .nop
  · subst hnop; cases h; exact .inr ⟨by simp [Refused], rfl⟩
  by_cases hreset : i = .reset
  · subst hreset; cases h; exact .inr ⟨by simp [Refused], rfl⟩
  · cases (exec_of_faulted hnop hreset hfault).symm.trans h
    exact .inl ⟨.inr (.inr (.inr (.inl ⟨hfault, hnop, hreset⟩))), rfl⟩

/-- `PPUSH` is refused by the Operational block exactly when the staging file is full. -/
theorem stageByte_answers (b : Byte) (hfault : s.status.fault = false) : Answers (.ppush b) s (stageByte b s) := by
  rcases stageByte_cases b s with ⟨hroom, e⟩ | ⟨hfull, e⟩ <;> rw [e]
  · exact .inr ⟨by simp [Refused, hfault]; omega, rfl⟩
  · exact .inl ⟨by simp [Refused, hfull], rfl⟩

/-- `RXBYTE` is refused by the Operational block exactly while no reception is active. -/
theorem feedByte_answers {b : Byte} (hfault : s.status.fault = false) (h : feedByte b s = .next t) :
    Answers (.rxbyte b) s t := by
  rcases feedByte_eq_next h with ⟨hended, rfl⟩ | ⟨hstate, rfl⟩ | ⟨hstate, rfl⟩ | ⟨hstate, rfl⟩ | ⟨hstate, rfl⟩
    | ⟨hstate, rfl⟩ | ⟨hstate, -, rfl⟩ | ⟨hstate, rfl⟩ | ⟨hstate, rfl⟩
  case inl => exact .inl ⟨by simp [Refused, hended], rfl⟩
  all_goals exact .inr ⟨by simp [Refused, hfault, hstate], rfl⟩

/-- `RXTMO` is refused by the Operational block exactly while no reception is active. -/
theorem receiveTimeout_answers (hfault : s.status.fault = false) : Answers .rxtmo s (receiveTimeout s) := by
  rcases receiveTimeout_cases s with ⟨hended, e⟩ | ⟨hidle, hdone, e⟩ <;> rw [e]
  · exact .inl ⟨by simp [Refused, hended], rfl⟩
  · exact .inr ⟨by simp [Refused, hfault, hidle, hdone], rfl⟩

theorem exec_answers_of_operational {i : Instr} (hi : ∀ id params crc, i ≠ .pktStatus id params crc)
    (hfault : s.status.fault = false) (h : exec i s = .next t) : Answers i s t := by
  cases i with
  | nop | reset => cases h; exact .inr ⟨by simp [Refused], rfl⟩
  | reservedC | reservedD | reservedE => cases h; exact .inl ⟨by simp [Refused], rfl⟩
  | pktStatus id params crc => exact absurd rfl (hi id params crc)
  | ppush b =>
    obtain rfl := eq_of_gated_pure hfault h
    exact stageByte_answers b hfault
  | rxbyte b => exact feedByte_answers hfault ((gated_of_operational hfault).symm.trans h)
  | rxtmo =>
    obtain rfl := eq_of_gated_pure hfault h
    exact receiveTimeout_answers hfault
  | hall r =>
    exact .inr ⟨by simp [Refused, hfault], hallUpdate_performs ((gated_of_operational hfault).symm.trans h)⟩
  | tick => exact .inr ⟨by simp [Refused, hfault], tickUpdate_performs ((gated_of_operational hfault).symm.trans h)⟩
  | ctick =>
    rcases execCtick_eq_next h with ⟨hfault', -⟩ | ⟨-, u, htick, rfl⟩
    · exact absurd (hfault.symm.trans hfault') nofun
    · exact .inr ⟨by simp [Refused, hfault], controlAfterTick_performs (tickUpdate_performs htick)⟩
  | setpt v =>
    obtain rfl := eq_of_gated_pure hfault h
    exact .inr ⟨by simp [Refused, hfault], setpointUpdate_performs v s⟩
  | pidstep current =>
    obtain rfl := eq_of_gated_pure (f := (pidUpdate · (wordValue current))) hfault h
    exact .inr ⟨by simp [Refused, hfault], rfl⟩
  | pktWrite id params | pktRegWrite id params | pktAction id params | pktFactoryReset id params =>
    obtain rfl := eq_of_gated_pure hfault h
    exact .inr ⟨by simp [Refused, hfault], sendPacket_performs id _ params s⟩
  | pclr | build id instr | rxarm id =>
    obtain rfl := eq_of_gated_pure hfault h
    exact .inr ⟨by simp [Refused, hfault], rfl⟩

/-- Every instruction but a received packet, which answers what its last byte does. -/
theorem exec_answers {i : Instr} (hi : ∀ id params crc, i ≠ .pktStatus id params crc) (h : exec i s = .next t) :
    Answers i s t := by
  cases hfault : s.status.fault with
  | false => exact exec_answers_of_operational hi hfault h
  | true => exact exec_answers_of_faulted hfault h

/-- Settles O13: `op_ok` tells a refused operation from a performed one, and a refusal writes nothing else. -/
theorem refusalsAreExactlyTheListed : Obligations.RefusalsAreExactlyTheListed := by
  intro w s t h
  rcases exec_answers (decodeWord_ne_pktStatus w) h with ⟨hrefused, rfl⟩ | ⟨hperformed, hop⟩
  · exact ⟨⟨fun _ => hrefused, fun _ => rfl⟩, fun _ => rfl⟩
  · have hne : t.status.opOk ≠ false := by simp [hop]
    exact ⟨⟨fun h => absurd h hne, fun h => absurd h hperformed⟩, fun h => absurd h hne⟩

/-! ### `SEND` as a sequence of operations (30_encoding.md R113) -/

/-- In the Faulted state a sequence that begins with a refusal and holds no `NOP` and no `RESET` is one refusal. -/
theorem execSeq_of_refused {ops : List Instr} (hops : ∀ i ∈ ops, i ≠ .nop ∧ i ≠ .reset)
    (hfault : s.status.fault = true) : execSeq ops s.refuse = .next s.refuse := by
  induction ops with
  | nil => rfl
  | cons i is ih =>
    obtain ⟨hnop, hreset⟩ := hops i (by simp)
    rw [execSeq_cons, exec_of_faulted (s := s.refuse) hnop hreset hfault, State.refuse_refuse, andThen_next]
    exact ih fun j hj => hops j (by simp [hj])

/-- Staging the parameters is a `PPUSH` for each; one refused at a full file does not stop the sequence. -/
theorem execSeq_ppush (params : List Byte) (hfault : s.status.fault = false) :
    execSeq (params.map .ppush) s = .next (stageBytes params s) := by
  induction params generalizing s with
  | nil => rfl
  | cons b bs ih =>
    have hb : exec (.ppush b) s = .next (stageByte b s) := gated_pure_of_operational hfault
    have hfault' : (stageByte b s).status.fault = false := (stageByte_sameMotor b s).fault.trans hfault
    rw [List.map_cons, execSeq_cons, hb, andThen_next, ih hfault', stageBytes_cons]

theorem execSeq_sendOps_of_operational (id instr : Byte) (params : List Byte) (hfault : s.status.fault = false) :
    execSeq (sendOps id instr params) s = .next (sendPacket id instr params s) := by
  have hclear : exec .pclr s = .next (clearStaging s) := gated_pure_of_operational hfault
  have hstage := execSeq_ppush params (s := clearStaging s) hfault
  have hfault' : (stageBytes params (clearStaging s)).status.fault = false := by
    obtain ⟨-, -, -, -, -, -, e, -⟩ := stageBytes_frame params (clearStaging s)
    exact e.trans hfault
  have hbuild : exec (.build id instr) (stageBytes params (clearStaging s))
      = .next (buildPacket id instr (stageBytes params (clearStaging s))) := gated_pure_of_operational hfault'
  have harm : exec (.rxarm id) (buildPacket id instr (stageBytes params (clearStaging s)))
      = .next (armReceiver id (buildPacket id instr (stageBytes params (clearStaging s)))) :=
    gated_pure_of_operational hfault'
  rw [sendOps, paramsOps, List.append_assoc, List.cons_append, execSeq_cons, hclear, andThen_next, execSeq_append,
    hstage, andThen_next, List.singleton_append, execSeq_cons, hbuild, andThen_next, sendPacket]
  split
  · rfl
  · rw [execSeq_cons, harm]; rfl

theorem execSeq_sendOps_of_faulted (id instr : Byte) (params : List Byte) (hfault : s.status.fault = true) :
    execSeq (sendOps id instr params) s = .next s.refuse := by
  have hclear : exec .pclr s = .next s.refuse := exec_of_faulted nofun nofun hfault
  have hrest : ∀ i ∈ params.map Instr.ppush ++ [.build id instr] ++ (if id = broadcastId then [] else [.rxarm id]),
      i ≠ .nop ∧ i ≠ .reset := by
    simp only [List.mem_append, List.mem_map, List.mem_singleton]
    rintro i ((⟨b, -, rfl⟩ | rfl) | harm)
    · exact ⟨nofun, nofun⟩
    · exact ⟨nofun, nofun⟩
    · split at harm <;> simp_all
  rw [sendOps, paramsOps, List.cons_append, List.cons_append, execSeq_cons, hclear, andThen_next]
  exact execSeq_of_refused hrest hfault

/-- `SEND` below the gate is the sequence, in the Operational and in the Faulted state. -/
theorem gated_sendPacket_eq_execSeq (id instr : Byte) (params : List Byte) (s : State) :
    gated s (fun v => .next (sendPacket id instr params v)) = execSeq (sendOps id instr params) s := by
  cases hfault : s.status.fault with
  | false => rw [gated_of_operational hfault, execSeq_sendOps_of_operational id instr params hfault]
  | true => rw [gated_of_faulted hfault, execSeq_sendOps_of_faulted id instr params hfault]

/-- Settles O49: the four forms differ only in their instruction byte. -/
theorem packetSendIsSendSequence : Obligations.PacketSendIsSendSequence := by
  intro id params s
  exact ⟨gated_sendPacket_eq_execSeq id 0x03 params s, gated_sendPacket_eq_execSeq id 0x04 params s,
    gated_sendPacket_eq_execSeq id 0x05 params s, gated_sendPacket_eq_execSeq id 0x06 params s⟩

/-! ### The encoding tables -/

/-- Settles O2: a word is its two fields, and each code selects one operation whatever the data. -/
theorem commandWordSelectsByTopFourBits : Obligations.CommandWordSelectsByTopFourBits :=
  ⟨commandWord_opField_dataField, decodeWord_commandWord⟩

/-- Settles O3 by running the decoder on the words and packets written out. -/
theorem writtenOutWordsDecode : Obligations.WrittenOutWordsDecode := by
  unfold Obligations.WrittenOutWordsDecode
  decide

theorem errLevel_code_ne_three (e : ErrLevel) : e.code ≠ 3 := by cases e <;> decide

theorem rxState_code_lt_ten (x : RxState) : x.code.toNat < 10 := by cases x <;> decide

/-- Settles O4: the tables are the definitions, and the codes never produced are missed by every constructor. -/
theorem registerCodesAsListed : Obligations.RegisterCodesAsListed :=
  ⟨rfl, rfl, errLevel_code_ne_three, rfl, rfl, rxState_code_lt_ten, rfl⟩

end Sys2Proof.Proofs.Encoding
end

section
/-! PROOFS. The statements of spec/40_hall_decoder.md: the successor tables of a well-formed configuration (R131), the
classification (R132), every case of `HALL` (R133 to R136), and the count of a contiguous walk (R138). -/

namespace Sys2Proof.Proofs.HallDecoder

open Sys2Proof Sys2Proof.Machine Function

variable {s : State} {p q r : HallReading}

/-! ### Valid readings (30_encoding.md R97) -/

theorem validReading_iff_toNat : validReading r = true ↔ 1 ≤ r.toNat ∧ r.toNat ≤ 6 := by
  revert r; decide

theorem validReading_eq_false_iff_toNat : validReading r = false ↔ r.toNat = 0 ∨ r.toNat = 7 := by
  revert r; decide

theorem validReading_iff_mem : validReading r = true ↔ r ∈ ([1, 2, 3, 4, 5, 6] : List HallReading) := by
  revert r; decide

/-! ### One cycle through the six valid readings (00_scope.md R12 clause (d))

A valid reading is where the walk from 1 stands after fewer than six steps, so what holds of the walk from 1 holds of
the walk from every valid reading. -/

/-- The walk of `f` from 1 meets six different valid readings and then returns to 1. -/
structure SixCycle (f : HallReading → HallReading) : Prop where
  valid : ∀ r ∈ List.iterate f 1 6, validReading r = true
  nodup : (List.iterate f 1 6).Nodup
  closes : IsPeriodicPt f 6 1

theorem hallFwd_sixCycle (c : Config) : SixCycle (hallFwd c.val) := by
  have hwalk : c.val.hallWalk = List.iterate (hallFwd c.val) 1 6 := rfl
  have hok := c.property
  simp only [Params.ok, Params.okHallTable, hwalk, Bool.and_eq_true, List.all_eq_true, decide_eq_true_eq, beq_iff_eq]
    at hok
  obtain ⟨⟨⟨-, ⟨hvalid, hnodup⟩, hcloses⟩, -⟩, -⟩ := hok
  have hperiodic : IsPeriodicPt (hallFwd c.val) 6 1 := by
    simpa only [IsPeriodicPt, IsFixedPt, Nat.iterate, hallFwd] using hcloses
  exact ⟨fun r hr => Bool.and_eq_true_iff.2 (hvalid r hr), hnodup, hperiodic⟩

section
variable {f : HallReading → HallReading} (hf : SixCycle f)
include hf

/-- Six different readings out of the six valid ones are all of them. -/
theorem SixCycle.exists_iterate (hp : validReading p = true) : ∃ k < 6, p = f^[k] 1 := by
  have hperm : (List.iterate f 1 6).Perm [1, 2, 3, 4, 5, 6] :=
    (hf.nodup.subperm fun r hr => validReading_iff_mem.1 (hf.valid r hr)).perm_of_length_le (by simp)
  exact List.mem_iterate.1 (hperm.mem_iff.2 (validReading_iff_mem.1 hp))

theorem SixCycle.periodic (hp : validReading p = true) : IsPeriodicPt f 6 p := by
  obtain ⟨k, -, rfl⟩ := hf.exists_iterate hp
  exact hf.closes.apply_iterate k

theorem SixCycle.valid_apply (hp : validReading p = true) : validReading (f p) = true := by
  obtain ⟨k, -, rfl⟩ := hf.exists_iterate hp
  rw [← iterate_succ_apply' f, ← hf.closes.iterate_mod_apply]
  exact hf.valid _ (List.mem_iterate.2 ⟨_, Nat.mod_lt _ (by decide), rfl⟩)

theorem SixCycle.valid_iterate (hp : validReading p = true) (k : Nat) : validReading (f^[k] p) = true := by
  induction k with
  | zero => exact hp
  | succ k ih => rw [iterate_succ_apply']; exact hf.valid_apply ih

/-- The walk is back where it began after six steps and not before. -/
theorem SixCycle.minimalPeriod_eq (hp : validReading p = true) : minimalPeriod f p = 6 := by
  obtain ⟨k, -, rfl⟩ := hf.exists_iterate hp
  rw [minimalPeriod_apply_iterate (mk_mem_periodicPts (by decide) hf.closes)]
  refine le_antisymm (hf.closes.minimalPeriod_le (by decide)) (Nat.le_of_not_lt fun hlt => ?_)
  have hpos := hf.closes.minimalPeriod_pos (by decide)
  have hback : (List.iterate f 1 6)[minimalPeriod f 1]'(by simpa using hlt) = (List.iterate f 1 6)[0] := by
    rw [List.getElem_iterate, iterate_minimalPeriod]; rfl
  exact hpos.ne' (hf.nodup.getElem_inj_iff.1 hback)

theorem SixCycle.iterate_ne (hp : validReading p = true) {k : Nat} (hpos : k ≠ 0) (hk : k < 6) : f^[k] p ≠ p :=
  not_isPeriodicPt_of_pos_of_lt_minimalPeriod hpos (by rwa [hf.minimalPeriod_eq hp])

theorem SixCycle.apply_inj (hp : validReading p = true) (hq : validReading q = true) (h : f p = f q) : p = q :=
  (hf.periodic hp).eq_of_apply_eq_same (hf.periodic hq) (by decide) h

end

/-! ### The two successors of a valid reading (R131) -/

section
variable (c : Config) (hp : validReading p = true)
include hp

theorem hallFwd_valid : validReading (hallFwd c.val p) = true := (hallFwd_sixCycle c).valid_apply hp

/-- The search that defines `HALL_BWD` finds the reading five steps ahead, which is one step behind. -/
theorem hallBwd_valid_and_hallFwd_hallBwd :
    validReading (hallBwd c.val p) = true ∧ hallFwd c.val (hallBwd c.val p) = p := by
  have hf := hallFwd_sixCycle c
  have hfive := validReading_iff_mem.1 (hf.valid_iterate hp 5)
  have hnext : hallFwd c.val ((hallFwd c.val)^[5] p) = p := by
    rw [← iterate_succ_apply' (hallFwd c.val)]; exact hf.periodic hp
  cases hfind : ([1, 2, 3, 4, 5, 6] : List HallReading).find? (fun r => hallFwd c.val r == p) with
  | none => exact absurd (beq_iff_eq.2 hnext) (List.find?_eq_none.1 hfind _ hfive)
  | some q =>
    have hbwd : hallBwd c.val p = q := by rw [hallBwd, hfind]; rfl
    rw [hbwd]
    exact ⟨validReading_iff_mem.2 (List.mem_of_find?_eq_some hfind), beq_iff_eq.1 (List.find?_some hfind :)⟩

theorem hallBwd_valid : validReading (hallBwd c.val p) = true := (hallBwd_valid_and_hallFwd_hallBwd c hp).1

theorem hallFwd_hallBwd : hallFwd c.val (hallBwd c.val p) = p := (hallBwd_valid_and_hallFwd_hallBwd c hp).2

theorem hallBwd_hallFwd : hallBwd c.val (hallFwd c.val p) = p :=
  have hfwd := hallFwd_valid c hp
  (hallFwd_sixCycle c).apply_inj (hallBwd_valid c hfwd) hp (hallFwd_hallBwd c hfwd)

theorem hallFwd_ne : hallFwd c.val p ≠ p := (hallFwd_sixCycle c).iterate_ne hp (k := 1) (by decide) (by decide)

theorem hallBwd_ne : hallBwd c.val p ≠ p := fun h =>
  hallFwd_ne c hp (by simpa only [h] using hallFwd_hallBwd c hp)

/-- Equal successors would bring the walk back after two steps. -/
theorem hallFwd_ne_hallBwd : hallFwd c.val p ≠ hallBwd c.val p := fun h =>
  (hallFwd_sixCycle c).iterate_ne hp (k := 2) (by decide) (by decide)
    ((congrArg (hallFwd c.val) h).trans (hallFwd_hallBwd c hp))

end

/-- Settles O17 from the single cycle of R12 clause (d). -/
theorem hallSuccessorsAreInverse : Obligations.HallSuccessorsAreInverse := fun c _ hp =>
  ⟨hallFwd_valid c hp, hallBwd_valid c hp, hallBwd_hallFwd c hp, hallFwd_hallBwd c hp, hallFwd_ne c hp,
    hallBwd_ne c hp, hallFwd_ne_hallBwd c hp⟩

/-! ### The classification (R132) -/

theorem classify_of_invalid (c : Params) (p : HallReading) (hr : validReading r = false) :
    classify c p r = .error := if_pos hr

theorem classify_other (c : Params) (hself : r ≠ p) (hbwd : r ≠ hallBwd c p) (hfwd : r ≠ hallFwd c p) :
    classify c p r = .error := by
  simp only [classify, if_neg hself, if_neg hbwd, if_neg hfwd, ite_self]

section
variable (c : Config) (hp : validReading p = true)
include hp

theorem classify_self : classify c.val p p = .noTransition := by simp [classify, hp]

theorem classify_hallBwd : classify c.val p (hallBwd c.val p) = .backward := by
  simp [classify, hallBwd_valid c hp, hallBwd_ne c hp]

theorem classify_hallFwd : classify c.val p (hallFwd c.val p) = .forward := by
  simp [classify, hallFwd_valid c hp, hallFwd_ne c hp, hallFwd_ne_hallBwd c hp]

/-- The four classes of readings: the previous one, its two successors, and every other. -/
theorem classify_cases (r : HallReading) :
    (r = p ∧ classify c.val p r = .noTransition) ∨ (r = hallBwd c.val p ∧ classify c.val p r = .backward)
    ∨ (r = hallFwd c.val p ∧ classify c.val p r = .forward) ∨ classify c.val p r = .error := by
  by_cases hself : r = p
  · exact .inl ⟨hself, by rw [hself, classify_self c hp]⟩
  by_cases hbwd : r = hallBwd c.val p
  · exact .inr (.inl ⟨hbwd, hbwd ▸ classify_hallBwd c hp⟩)
  by_cases hfwd : r = hallFwd c.val p
  · exact .inr (.inr (.inl ⟨hfwd, hfwd ▸ classify_hallFwd c hp⟩))
  · exact .inr (.inr (.inr (classify_other c.val hself hbwd hfwd)))

theorem classify_eq_noTransition_iff : classify c.val p r = .noTransition ↔ r = p :=
  ⟨fun h => by simpa [h] using classify_cases c hp r, fun h => by rw [h, classify_self c hp]⟩

theorem classify_eq_backward_iff : classify c.val p r = .backward ↔ r = hallBwd c.val p :=
  ⟨fun h => by simpa [h] using classify_cases c hp r, fun h => h ▸ classify_hallBwd c hp⟩

theorem classify_eq_forward_iff : classify c.val p r = .forward ↔ r = hallFwd c.val p :=
  ⟨fun h => by simpa [h] using classify_cases c hp r, fun h => h ▸ classify_hallFwd c hp⟩

end

/-- The eight codes a reading can be. -/
def allReadings : List HallReading := [0, 1, 2, 3, 4, 5, 6, 7]

/-- Every code stands in the list once. -/
theorem allReadings_count (q : HallReading) : (allReadings.filter fun r => decide (r = q)).length = 1 := by
  revert q; decide

/-- An event that a single reading gives is given once. -/
theorem allReadings_event_count {g : HallReading → MotionEvent} {e : MotionEvent} (h : ∀ r, g r = e ↔ r = q) :
    (allReadings.filter fun r => decide (g r = e)).length = 1 := by
  simp only [h, allReadings_count]

/-- Every reading of a list gives exactly one of the four events. -/
theorem length_eq_sum_event_counts (g : HallReading → MotionEvent) (rs : List HallReading) :
    rs.length = (rs.filter fun r => decide (g r = .noTransition)).length
      + (rs.filter fun r => decide (g r = .forward)).length + (rs.filter fun r => decide (g r = .backward)).length
      + (rs.filter fun r => decide (g r = .error)).length := by
  induction rs with
  | nil => rfl
  | cons r rs ih => cases h : g r <;> simp [h] <;> omega

/-- Settles O18: three events have one reading each, and the five readings left give Error. -/
theorem classificationOfEveryReading : Obligations.ClassificationOfEveryReading := by
  intro c p hp
  have hnone := allReadings_event_count fun r => classify_eq_noTransition_iff (r := r) c hp
  have hfwd := allReadings_event_count fun r => classify_eq_forward_iff (r := r) c hp
  have hbwd := allReadings_event_count fun r => classify_eq_backward_iff (r := r) c hp
  have hsum := length_eq_sum_event_counts (classify c.val p) allReadings
  have hlen : allReadings.length = 8 := rfl
  have herror : (allReadings.filter fun r => decide (classify c.val p r = .error)).length = 5 := by omega
  exact ⟨classify_of_invalid _ _ rfl, classify_of_invalid _ _ rfl, classify_self c hp, classify_hallBwd c hp,
    classify_hallFwd c hp, fun _ => classify_other c.val, hnone, hfwd, hbwd, herror⟩

/-! ### The per-tick count (41_velocity_window.md R151) -/

/-- The sentinel stays and anything else is replaced by it. -/
theorem accumulate_error (cnt : Byte) : accumulate cnt .error = countSentinel := by
  unfold accumulate
  split
  · assumption
  · rfl

theorem ne_countSentinel_of_countValue {cnt : Byte} (h : -128 < countValue cnt) : cnt ≠ countSentinel := by
  rintro rfl
  exact absurd h (by decide)

/-- Below COUNT_MAX a forward event counts one up. -/
theorem countValue_accumulate_forward {cnt : Byte} (hlow : -128 < countValue cnt) (hhigh : countValue cnt < 127) :
    countValue (accumulate cnt .forward) = countValue cnt + 1 := by
  have hmax : countValue cnt ≠ countMax := Int.ne_of_lt hhigh
  have hone : BitVec.toInt (1 : Byte) = 1 := by decide
  simp only [accumulate, if_neg (ne_countSentinel_of_countValue hlow), if_neg hmax]
  simp only [countValue] at hlow hhigh ⊢
  rw [BitVec.toInt_add, hone]
  exact Int.bmod_eq_of_le (by omega) (by omega)

/-- Above -COUNT_MAX a backward event counts one down. -/
theorem countValue_accumulate_backward {cnt : Byte} (hlow : -127 < countValue cnt) :
    countValue (accumulate cnt .backward) = countValue cnt - 1 := by
  have hmin : countValue cnt ≠ -countMax := (Int.ne_of_lt hlow).symm
  have hone : BitVec.toInt (1 : Byte) = 1 := by decide
  have hhigh := BitVec.toInt_lt (x := cnt)
  simp only [accumulate, if_neg (ne_countSentinel_of_countValue (Int.lt_trans (by decide) hlow)), if_neg hmin]
  simp only [countValue] at hlow ⊢
  rw [BitVec.toInt_sub, hone]
  exact Int.bmod_eq_of_le (by omega) (by omega)

/-! ### The operation `HALL` (R133) -/

theorem exec_hall_of_operational (r : HallReading) (hfault : s.status.fault = false) :
    exec (.hall r) s = hallUpdate r s := gated_of_operational hfault

/-- Lines 5 and 6: the seeding call (R134). -/
theorem hallUpdate_of_seeding (hseeded : s.htc.seeded = false) (hr : validReading r = true) :
    hallUpdate r s = .next (s.perform.seed r) := by
  simp only [hallUpdate, if_pos hseeded, if_pos hr]

/-- Lines 8 and 9: an invalid first reading (R135). -/
theorem hallUpdate_of_invalid_first (hseeded : s.htc.seeded = false) (hr : validReading r = false) :
    hallUpdate r s = .next (s.perform.emitEvent .error) := by
  simp only [hallUpdate, if_pos hseeded, hr, Bool.false_eq_true, if_false]

/-- Lines 11 to 14. -/
theorem hallUpdate_of_seeded (r : HallReading) (hseeded : s.htc.seeded = true)
    (hprev : validReading s.htc.prev = true) :
    hallUpdate r s = .next ((s.perform.emitEvent (classify s.par s.htc.prev r)).follow r) := by
  simp only [hallUpdate, hseeded, hprev, Bool.true_eq_false, and_false, if_false]

/-- Settles O19: the gate of the Faulted state, then the three branches of R133. -/
theorem hallPerformsEveryCase : Obligations.HallPerformsEveryCase := by
  intro r s
  refine ⟨fun hfault => gated_of_faulted hfault, fun hfault hseeded hlow hhigh => ?seeding,
    fun hfault hseeded hr => ?invalidFirst, fun hfault hseeded hlow hhigh => ?seeded⟩
  case seeding =>
    rw [exec_hall_of_operational r hfault, hallUpdate_of_seeding hseeded (validReading_iff_toNat.2 ⟨hlow, hhigh⟩)]
    rfl
  case invalidFirst =>
    rw [exec_hall_of_operational r hfault,
      hallUpdate_of_invalid_first hseeded (validReading_eq_false_iff_toNat.2 hr), State.emitEvent, accumulate_error]
    rfl
  case seeded =>
    rw [exec_hall_of_operational r hfault,
      hallUpdate_of_seeded r hseeded (validReading_iff_toNat.2 ⟨hlow, hhigh⟩)]
    simp only [State.follow, State.emitEvent, State.perform, hseeded, ← validReading_iff_toNat]

/-! ### A contiguous walk (R138)

The forward and the backward walk need one argument: each step goes to a valid successor, its classification is one
event, and that event moves the count by one sign. -/

/-- The operations of a walk along `next` are the `HALL`s of its iterates. -/
def walkAlong (next : HallReading → HallReading) (p : HallReading) (k : Nat) : List Instr :=
  (List.iterate next (next p) k).map .hall

theorem walkForward_eq (c : Params) (p : HallReading) (k : Nat) : walkForward c p k = walkAlong (hallFwd c) p k := by
  induction k generalizing p with
  | zero => rfl
  | succ k ih => exact congrArg (List.cons _) (ih _)

theorem walkBackward_eq (c : Params) (p : HallReading) (k : Nat) :
    walkBackward c p k = walkAlong (hallBwd c) p k := by
  induction k generalizing p with
  | zero => rfl
  | succ k ih => exact congrArg (List.cons _) (ih _)

/-- A direction of rotation: its successor table, its event, and its sign; `count` is `accumulate` (R151) after `j`
steps of one tick. -/
structure Direction (c : Params) (next : HallReading → HallReading) (e : MotionEvent) (sign : Int) : Prop where
  valid : ∀ {p}, validReading p = true → validReading (next p) = true
  event : ∀ {p}, validReading p = true → classify c p (next p) = e
  count : ∀ {cnt : Byte} {j : Nat}, j < 127 → countValue cnt = sign * j →
    countValue (accumulate cnt e) = sign * (j + 1)

theorem forward_direction (c : Config) : Direction c.val (hallFwd c.val) .forward 1 where
  valid := hallFwd_valid c
  event := classify_hallFwd c
  count hj hcnt := by rw [countValue_accumulate_forward] <;> omega

theorem backward_direction (c : Config) : Direction c.val (hallBwd c.val) .backward (-1) where
  valid := hallBwd_valid c
  event := classify_hallBwd c
  count hj hcnt := by rw [countValue_accumulate_backward] <;> omega

/-- The Operational block, seeded with a valid reading, with a given count. -/
structure Tracking (c : Config) (n : Int) (s : State) : Prop where
  cfg : s.cfg = c
  operational : s.status.fault = false
  seeded : s.htc.seeded = true
  valid : validReading s.htc.prev = true
  count : countValue s.vwe.cnt = n

/-- The same block when its last `HALL` has emitted a given event. -/
structure Moving (c : Config) (e : MotionEvent) (n : Int) (s : State) : Prop extends Tracking c n s where
  event : s.htc.event = e
  emitted : s.htc.eventValid = true

section
variable {c : Config} {next : HallReading → HallReading} {e : MotionEvent} {sign : Int}
  (hdir : Direction c.val next e sign)
include hdir

/-- One step, continuing a count of `j` steps. -/
theorem exec_hall_next {j : Nat} (hj : j < 127) (hs : Tracking c (sign * j) s) :
    ∃ t, exec (.hall (next s.htc.prev)) s = .next t ∧ t.htc.prev = next s.htc.prev
      ∧ Moving c e (sign * (j + 1 : Nat)) t := by
  obtain ⟨rfl, hfault, hseeded, hvalid, hcount⟩ := hs
  have hstep := hallUpdate_of_seeded (next s.htc.prev) hseeded hvalid
  rw [hdir.event hvalid] at hstep
  have hnext := hdir.valid hvalid
  have hprev : ((s.perform.emitEvent e).follow (next s.htc.prev)).htc.prev = next s.htc.prev := if_pos hnext
  have hcount' := hdir.count hj hcount
  exact ⟨_, (exec_hall_of_operational _ hfault).trans hstep, hprev,
    ⟨⟨rfl, hfault, hseeded, hprev.symm ▸ hnext, hcount'⟩, rfl, rfl⟩⟩

/-- A walk, continuing a count of `j` steps while the count stays within its range. -/
theorem execSeq_walkAlong {j k : Nat} (hjk : j + k < 128) (hs : Moving c e (sign * j) s) :
    ∃ t, execSeq (walkAlong next s.htc.prev k) s = .next t ∧ Moving c e (sign * (j + k : Nat)) t := by
  induction k generalizing j s with
  | zero => exact ⟨s, rfl, hs⟩
  | succ k ih =>
    obtain ⟨u, hstep, hprev, hu⟩ := exec_hall_next hdir (by omega) hs.toTracking
    obtain ⟨t, hwalk, ht⟩ := ih (by omega) hu
    rw [hprev] at hwalk
    rw [Nat.add_right_comm] at ht
    exact ⟨t, andThen_eq_next.2 ⟨u, hstep, hwalk⟩, ht⟩

/-- From count 0 a walk of at least one step counts its steps. -/
theorem execSeq_walkAlong_of_zero {k : Nat} (hpos : 0 < k) (hk : k < 128) (hs : Tracking c 0 s) :
    ∃ t, execSeq (walkAlong next s.htc.prev k) s = .next t ∧ Moving c e (sign * k) t := by
  cases k with
  | zero => exact absurd hpos (Nat.lt_irrefl 0)
  | succ k =>
    obtain ⟨u, hstep, hprev, hu⟩ := exec_hall_next hdir (j := 0) (by decide) (by simpa using hs)
    obtain ⟨t, hwalk, ht⟩ := execSeq_walkAlong hdir (k := k) (by omega) hu
    rw [hprev] at hwalk
    rw [Nat.zero_add, Nat.add_comm] at ht
    exact ⟨t, andThen_eq_next.2 ⟨u, hstep, hwalk⟩, ht⟩

end

/-- Settles O21: both directions from the count 0. -/
theorem contiguousWalkCountsItsSteps : Obligations.ContiguousWalkCountsItsSteps := by
  intro s k hfault hseeded hvalid hcnt hpos hk
  have hs : Tracking s.cfg 0 s := ⟨rfl, hfault, hseeded, hvalid, by rw [hcnt]; decide⟩
  obtain ⟨t, hfwd, ht⟩ := execSeq_walkAlong_of_zero (forward_direction s.cfg) hpos hk hs
  obtain ⟨u, hbwd, hu⟩ := execSeq_walkAlong_of_zero (backward_direction s.cfg) hpos hk hs
  rw [walkForward_eq, walkBackward_eq]
  exact ⟨⟨t, hfwd, ht.event, ht.emitted, ht.count.trans (Int.one_mul _), ht.valid⟩,
    ⟨u, hbwd, hu.event, hu.emitted, hu.count.trans (Int.neg_one_mul _), hu.valid⟩⟩

end Sys2Proof.Proofs.HallDecoder
end

section
/-! PROOFS. The statements of spec/41_velocity_window.md: the per-tick count (R151, R152), the faulty tick (R154), the
normal tick with its bound and scaling (R155, R156, R158), the sum of the last counts (R159), and `CTICK` (R161). -/

namespace Sys2Proof.Proofs.VelocityWindow

open Sys2Proof Sys2Proof.Machine Sys2Proof.Proofs.Registers Sys2Proof.Proofs.HallDecoder

variable {s t : State}

/-! ### The per-tick count (R151, R152) -/

theorem countValue_countSentinel : countValue countSentinel = -128 := by decide

theorem accumulate_countSentinel (e : MotionEvent) : accumulate countSentinel e = countSentinel := if_pos rfl

theorem accumulate_noTransition (cnt : Byte) : accumulate cnt .noTransition = cnt := by
  unfold accumulate
  split <;> rfl

/-- Arithmetic overflow forces the sentinel, in either direction. -/
theorem accumulate_forward_of_max {cnt : Byte} (h : countValue cnt = countMax) :
    accumulate cnt .forward = countSentinel := by
  simp only [accumulate, if_pos h, ite_eq_right_iff, imp_self]

theorem accumulate_backward_of_min {cnt : Byte} (h : countValue cnt = -countMax) :
    accumulate cnt .backward = countSentinel := by
  simp only [accumulate, if_pos h, ite_eq_right_iff, imp_self]

/-- Settles O20: the sticky sentinel, then each event by its line of R151. -/
theorem accumulateStepsOrMarks : Obligations.AccumulateStepsOrMarks := by
  refine ⟨accumulate_countSentinel, fun cnt hcnt => ?_⟩
  have hrange : (countValue cnt).natAbs ≤ 127 := countValue_natAbs_le hcnt
  refine ⟨fun hhigh => countValue_accumulate_forward (by omega) hhigh, fun hmax => ?_, countValue_accumulate_backward,
    fun hmin => ?_, accumulate_noTransition cnt, ?_⟩
  · rw [accumulate_forward_of_max hmax, countValue_countSentinel]
  · rw [accumulate_backward_of_min hmin, countValue_countSentinel]
  · rw [accumulate_error, countValue_countSentinel]

/-! ### The two kinds of tick (R153) -/

theorem exec_tick_of_operational (hfault : s.status.fault = false) : exec .tick s = tickUpdate s :=
  gated_of_operational hfault

theorem tickUpdate_of_sentinel (herr : s.vwe.err ≠ .hard) (hcnt : s.vwe.cnt = countSentinel) :
    tickUpdate s = .next (faultyTick s.ticked) :=
  (if_neg herr).trans (if_pos hcnt)

theorem tickUpdate_of_normal (herr : s.vwe.err ≠ .hard) (hcnt : s.vwe.cnt ≠ countSentinel)
    (hcur : s.vwe.cur < s.par.windowLength) : tickUpdate s = .next (normalTick s.ticked) :=
  (if_neg herr).trans ((if_neg hcnt).trans (if_pos hcur))

/-- R45 (g): a latched Hard error means the Faulted state. -/
theorem err_ne_hard_of_inv (hs : s.Inv) (hfault : s.status.fault = false) : s.vwe.err ≠ .hard := by
  obtain ⟨-, -, -, ⟨hhard, -⟩, -⟩ := hs
  exact fun herr => Bool.noConfusion (hfault.symm.trans (hhard herr).1)

theorem exec_tick_of_normal (hs : s.Inv) (hfault : s.status.fault = false) (hcnt : s.vwe.cnt ≠ countSentinel) :
    exec .tick s = .next (normalTick s.ticked) := by
  have ⟨⟨_, _, hcur, _⟩, _⟩ := hs
  rw [exec_tick_of_operational hfault, tickUpdate_of_normal (err_ne_hard_of_inv hs hfault) hcnt hcur]

theorem faultyTick_of_none (herr : s.vwe.err = .none) :
    faultyTick s = { s with vwe := { s.vwe with
      err := .soft, softErrCnt := saturatingSucc s.vwe.softErrCnt, cnt := 0,
      velOut := scaledVelocity s.par s.vwe.vsum } } := if_pos herr

theorem faultyTick_of_soft (herr : s.vwe.err = .soft) : faultyTick s = hardTick s .consecutiveTickFaults :=
  if_neg (by simp [herr])

/-- Settles O22: None escalates to Soft and Soft to Hard. -/
theorem faultyTickEscalates : Obligations.FaultyTickEscalates := by
  intro s hfault hcnt
  rw [exec_tick_of_operational hfault]
  refine ⟨fun herr => ?_, fun herr => ?_⟩
  · rw [tickUpdate_of_sentinel (by simp [herr]) hcnt, faultyTick_of_none (s := s.ticked) herr]
    rfl
  · rw [tickUpdate_of_sentinel (by simp [herr]) hcnt, faultyTick_of_soft (s := s.ticked) herr]
    rfl

/-! ### The output scaling is exact (R158, 00_scope.md R12 clause (c)) -/

theorem truncDiv_eq_tdiv (a : Int) (b : Nat) : truncDiv a b = a.tdiv b := by
  unfold truncDiv
  split
  · rename_i h
    exact (Int.tdiv_eq_ediv_of_nonneg h).symm
  · rename_i h
    rw [← Int.tdiv_eq_ediv_of_nonneg (by omega), Int.neg_tdiv, Int.neg_neg]

theorem truncDiv_natAbs_le (a : Int) (b : Nat) : (truncDiv a b).natAbs ≤ a.natAbs := by
  rw [truncDiv_eq_tdiv, Int.natAbs_tdiv]
  exact Nat.div_le_self _ _

theorem par_scaled_fits (s : State) : s.par.windowLength * countMax * s.par.tickHz < 2 ^ 31 := by
  have hok := s.cfg.property
  simp only [Params.ok, Params.okScaled, Bool.and_eq_true, decide_eq_true_eq] at hok
  obtain ⟨⟨⟨⟨-, -, hscaled⟩, -⟩, -⟩, -⟩ := hok
  exact hscaled

/-- A sum of W slots is scaled without loss: the product of R158 line 10 fits 32 signed bits. -/
theorem wordValue_scaledVelocity {v : Word} (h : (wordValue v).natAbs ≤ s.par.windowLength * countMax) :
    wordValue (scaledVelocity s.par v) = truncDiv (wordValue v * s.par.tickHz) s.par.windowLength := by
  have hquotient := truncDiv_natAbs_le (wordValue v * s.par.tickHz) s.par.windowLength
  have hproduct : (wordValue v * s.par.tickHz).natAbs ≤ s.par.windowLength * countMax * s.par.tickHz := by
    rw [Int.natAbs_mul, Int.natAbs_natCast]
    exact Nat.mul_le_mul_right _ h
  have hfits := par_scaled_fits s
  exact wordValue_toWord (by omega) (by omega)

/-! ### The normal tick (R155, R156) -/

/-- R45 (a) and (b): the sum of W slots, each within ±COUNT_MAX. -/
theorem vsum_natAbs_le (h : s.WindowInv) : (wordValue s.vwe.vsum).natAbs ≤ s.par.windowLength * countMax := by
  obtain ⟨hsum, hslots, -⟩ := h
  rw [hsum]
  exact windowSum_natAbs_le hslots

/-- The new sum does not wrap, since it is the sum of the new slots. -/
theorem slideWindow_vsum (h : s.WindowInv) (hcnt : s.vwe.cnt ≠ countSentinel) :
    wordValue (slideWindow s).vwe.vsum
      = wordValue s.vwe.vsum - slotValue s.vwe.buf s.vwe.cur + countValue s.vwe.cnt := by
  obtain ⟨hsum', -⟩ := slideWindow_windowInv h hcnt
  obtain ⟨hsum, -, hcur, -⟩ := h
  rw [hsum, hsum', ← windowSum_write s.vwe.buf s.vwe.cnt hcur]
  rfl

/-- The bound check is decided by the value of the new sum (R156). -/
theorem beyondBound_eq_true {p : Params} {v : Word} :
    beyondBound p v = true ↔ p.windowLength * p.maxPerTickCount < (wordValue v).natAbs := decide_eq_true_iff

theorem beyondBound_eq_false {p : Params} {v : Word} :
    beyondBound p v = false ↔ (wordValue v).natAbs ≤ p.windowLength * p.maxPerTickCount := by
  rw [← Bool.not_eq_true, beyondBound_eq_true, Nat.not_lt]

/-- Whether or not the bound is met, a normal tick leaves the window as the slide does, and clears the count. -/
structure SlidTick (s t : State) : Prop where
  vsum : t.vwe.vsum = (slideWindow s).vwe.vsum
  buf : t.vwe.buf = s.vwe.buf.write s.vwe.cur s.vwe.cnt
  cur : t.vwe.cur = nextCursor s.par.windowLength s.vwe.cur
  cnt : t.vwe.cnt = 0
  ticks : t.vwe.ticks = s.vwe.ticks
  softErrCnt : t.vwe.softErrCnt = s.vwe.softErrCnt
  opOk : t.status.opOk = s.status.opOk
  cfg : t.cfg = s.cfg
  port : t.port = s.port
  htc : t.htc = s.htc
  tx : t.tx = s.tx
  rx : t.rx = s.rx

theorem normalTick_slidTick (s : State) : SlidTick s (normalTick s) := by
  rcases normalTick_cases s with ⟨-, e⟩ | ⟨-, e⟩ <;> rw [e] <;> constructor <;> rfl

/-- The part of a normal tick that depends on the bound check, when the new sum is within the bound. -/
theorem normalTick_of_within (h : s.WindowInv) (hcnt : s.vwe.cnt ≠ countSentinel)
    (hbound : (wordValue (normalTick s).vwe.vsum).natAbs ≤ s.par.windowLength * s.par.maxPerTickCount) :
    (normalTick s).vwe.err = .none
    ∧ wordValue (normalTick s).vwe.velOut
        = truncDiv (wordValue (normalTick s).vwe.vsum * s.par.tickHz) s.par.windowLength
    ∧ (normalTick s).status = s.status ∧ (normalTick s).pid = s.pid := by
  rw [(normalTick_slidTick s).vsum] at hbound ⊢
  rcases normalTick_cases s with ⟨hbeyond, -⟩ | ⟨-, e⟩
  · exact absurd (beyondBound_eq_true.1 hbeyond) (Nat.not_lt.2 hbound)
  · rw [e]
    exact ⟨rfl, wordValue_scaledVelocity (vsum_natAbs_le (slideWindow_windowInv h hcnt)), rfl, rfl⟩

/-- The same part when the new sum is beyond the bound: fault entry with VelocityBound. -/
theorem normalTick_of_beyond
    (hbound : s.par.windowLength * s.par.maxPerTickCount < (wordValue (normalTick s).vwe.vsum).natAbs) :
    (normalTick s).vwe.err = .hard ∧ (normalTick s).vwe.velOut = 0
    ∧ (normalTick s).status = { s.status with fault := true, cause := .velocityBound }
    ∧ (normalTick s).pid = { s.pid with pidOut := 0, pidRaw := 0 } := by
  rw [(normalTick_slidTick s).vsum] at hbound
  rcases normalTick_cases s with ⟨-, e⟩ | ⟨hwithin, -⟩
  · rw [e]
    exact ⟨rfl, rfl, rfl, rfl⟩
  · exact absurd hbound (Nat.not_lt.2 (beyondBound_eq_false.1 hwithin))

/-- Settles O23: the window part of the tick, and the two outcomes of the bound check. -/
theorem normalTickSlidesWindow : Obligations.NormalTickSlidesWindow := by
  intro s hs hfault hcnt
  have ⟨(hwindow : s.ticked.WindowInv), _⟩ := hs
  have htick := normalTick_slidTick s.ticked
  refine ⟨normalTick s.ticked, exec_tick_of_normal hs hfault hcnt, ?_, ?_, fun a ha => ?_, htick.cur, htick.cnt,
    htick.ticks, htick.softErrCnt, htick.opOk, fun hbound => ?_, fun hbound => ?_, htick.cfg, htick.port, htick.htc,
    htick.tx, htick.rx⟩
  · rw [htick.vsum]
    exact slideWindow_vsum hwindow hcnt
  · rw [htick.buf]
    exact Memory.read_write_self _ _ _
  · rw [htick.buf]
    exact Memory.read_write_of_ne _ _ ha
  · obtain ⟨herr, hvel, hstatus, hpid⟩ := normalTick_of_within hwindow hcnt hbound
    exact ⟨herr, hvel, by rw [hstatus]; exact hfault, by rw [hstatus]; rfl, hpid⟩
  · obtain ⟨herr, hvel, hstatus, hpid⟩ := normalTick_of_beyond (s := s.ticked) hbound
    exact ⟨herr, hvel, by rw [hstatus], by rw [hstatus], hpid⟩

/-- Settles O24: the sum of the new slots is within W * COUNT_MAX, which is the default bound. -/
theorem defaultBoundIsNeverExceeded : Obligations.DefaultBoundIsNeverExceeded := by
  intro s t hs hdefault hfault hcnt h
  obtain rfl : normalTick s.ticked = t := by injection (exec_tick_of_normal hs hfault hcnt).symm.trans h
  have ⟨(hwindow : s.ticked.WindowInv), _⟩ := hs
  have hbound := vsum_natAbs_le (slideWindow_windowInv hwindow hcnt)
  rw [← (normalTick_slidTick s.ticked).vsum] at hbound
  obtain ⟨herr, -, hstatus, -⟩ := normalTick_of_within hwindow hcnt (hdefault ▸ hbound)
  exact ⟨by rw [hstatus]; exact hfault, herr⟩

/-! ### `CTICK` (R161) -/

/-- What a tick does to the controller: nothing, or fault entry's clearing of its outputs (60_exceptions.md R283). -/
theorem tickUpdate_pid (h : tickUpdate s = .next t) :
    (t.status.fault = s.status.fault ∧ t.pid = s.pid)
    ∨ (t.status.fault = true ∧ t.pid = { s.pid with pidOut := 0, pidRaw := 0 }) := by
  obtain ⟨-, ⟨-, rfl⟩ | ⟨-, -, rfl⟩⟩ := tickUpdate_eq_next h
  · rcases faultyTick_cases s.ticked with ⟨-, e⟩ | ⟨-, e⟩ <;> rw [e]
    · exact .inl ⟨rfl, rfl⟩
    · exact .inr ⟨rfl, rfl⟩
  · rcases normalTick_cases s.ticked with ⟨-, e⟩ | ⟨-, e⟩ <;> rw [e]
    · exact .inr ⟨rfl, rfl⟩
    · exact .inl ⟨rfl, rfl⟩

theorem exec_ctick_of_faulted (hfault : s.status.fault = true) : exec .ctick s = .next s.refuse :=
  gated_of_faulted (k := fun t => andThen (tickUpdate t) fun u => .next (controlAfterTick u)) hfault

theorem exec_pidstep_of_operational (current : Word) (hfault : s.status.fault = false) :
    exec (.pidstep current) s = .next (pidUpdate s (wordValue current)) :=
  gated_of_operational (k := fun t => .next (pidUpdate t (wordValue current))) hfault

theorem exec_ctick_of_tickUpdate (hfault : s.status.fault = false) (h : tickUpdate s = .next t) :
    exec .ctick s = .next (controlAfterTick t) := by
  show execCtick s = _
  rw [execCtick, gated_of_operational hfault, h, andThen_next]

/-- Settles O27: both operations run the tick's lines, and the control step is that of `PIDSTEP` unless the tick
faulted. -/
theorem ctickIsTickThenPidstep : Obligations.CtickIsTickThenPidstep := by
  intro s
  refine ⟨exec_ctick_of_faulted, fun hs hfault => ?_⟩
  obtain ⟨t, htick⟩ := tickUpdate_completes hs hfault
  refine ⟨t, controlAfterTick t, (exec_tick_of_operational hfault).trans htick,
    exec_ctick_of_tickUpdate hfault htick, fun htfault => ?_, fun htfault => ?_⟩
  · have hcontrol : controlAfterTick t = pidUpdate t (wordValue t.vwe.velOut) := if_neg (by simp [htfault])
    rw [hcontrol]
    exact exec_pidstep_of_operational _ htfault
  · have hkept : controlAfterTick t = t := if_pos htfault
    rw [hkept]
    rcases tickUpdate_pid htick with ⟨hsame, -⟩ | ⟨-, hpid⟩
    · exact Bool.noConfusion (hfault.symm.trans (hsame.symm.trans htfault))
    · simp only [hpid, and_self]

/-! ### The window as a queue of the last W counts (R159)

Read from the cursor round to the cursor, the slots are the last W counts, oldest first; the zeros of the reset window
stand for the counts before the first. -/

/-- The bytes of a window of `w` slots, the one at the cursor first. -/
def oldestFirst (buf : Memory) (w cur : Nat) : List Byte :=
  (List.range w).map fun k => buf.read ((cur + k) % w)

/-- The last `w` counts, zeros before the first. -/
def lastCounts (w : Nat) (counts : List Byte) : List Byte := (List.replicate w 0 ++ counts).drop counts.length

theorem oldestFirst_nil (w cur : Nat) : oldestFirst [] w cur = List.replicate w 0 := by
  simp [oldestFirst, Memory.blank]

/-- The slot at the cursor is the oldest. -/
theorem oldestFirst_eq_cons (buf : Memory) {w cur : Nat} (hcur : cur < w) :
    oldestFirst buf w cur = buf.read cur :: (oldestFirst buf w cur).tail := by
  cases w with
  | zero => omega
  | succ w => simp [oldestFirst, List.range_succ_eq_map, Nat.mod_eq_of_lt hcur]

/-- Storing a count at the cursor and advancing it drops the oldest byte and appends the count. -/
theorem oldestFirst_write_nextCursor (buf : Memory) (b : Byte) {w cur : Nat} (hcur : cur < w) :
    oldestFirst (buf.write cur b) w (nextCursor w cur) = (oldestFirst buf w cur).tail ++ [b] := by
  refine List.ext_getElem (by simp [oldestFirst]; omega) fun k hk _ => ?_
  have hkw : k < w := by simpa [oldestFirst] using hk
  have hslot : (nextCursor w cur + k) % w = (cur + (k + 1)) % w := by
    rw [nextCursor, Nat.mod_add_mod, Nat.add_right_comm, Nat.add_assoc]
  simp only [oldestFirst, List.getElem_map, List.getElem_range, hslot, List.getElem_append, List.length_tail,
    List.length_map, List.length_range, List.getElem_tail]
  split
  · rename_i hold
    have hne : (cur + (k + 1)) % w ≠ cur := by
      rcases Nat.lt_or_ge (cur + (k + 1)) w with hlt | hge
      · rw [Nat.mod_eq_of_lt hlt]; omega
      · rw [Nat.mod_eq_sub_mod hge, Nat.mod_eq_of_lt (by omega)]; omega
    exact Memory.read_write_of_ne buf b hne
  · have hlast : k + 1 = w := by omega
    rw [hlast, Nat.add_mod_right, Nat.mod_eq_of_lt hcur, Memory.read_write_self, List.getElem_singleton]

theorem lastCounts_nil (w : Nat) : lastCounts w [] = List.replicate w 0 := by simp [lastCounts]

theorem lastCounts_append_singleton {w : Nat} (hw : 0 < w) (counts : List Byte) (b : Byte) :
    lastCounts w (counts ++ [b]) = (lastCounts w counts).tail ++ [b] := by
  rw [lastCounts, lastCounts, List.tail_drop, ← List.append_assoc, List.length_append, List.length_singleton,
    List.drop_append_of_le_length]
  simp only [List.length_append, List.length_replicate]
  omega

theorem countSum_cons (b : Byte) (counts : List Byte) : countSum (b :: counts) = countValue b + countSum counts :=
  List.sum_cons

theorem countSum_append (l m : List Byte) : countSum (l ++ m) = countSum l + countSum m := by
  simp [countSum]

theorem countSum_replicate_zero (n : Nat) : countSum (List.replicate n 0) = 0 := by
  simp [countSum, countValue]

/-- The zeros before the first count add nothing. -/
theorem countSum_lastCounts (w : Nat) (counts : List Byte) :
    countSum (lastCounts w counts) = countSum (counts.drop (counts.length - w)) := by
  rw [lastCounts, List.drop_append, List.drop_replicate, List.length_replicate, countSum_append,
    countSum_replicate_zero, zero_add]

/-- The window of a state after the normal counts `counts` from reset under `c`. -/
structure Windowed (c : Config) (counts : List Byte) (s : State) : Prop where
  cfg : s.cfg = c
  cur : s.vwe.cur = counts.length % c.val.windowLength
  slots : oldestFirst s.vwe.buf c.val.windowLength s.vwe.cur = lastCounts c.val.windowLength counts
  vsum : wordValue s.vwe.vsum = countSum (lastCounts c.val.windowLength counts)

section
variable {c : Config} {counts : List Byte}

theorem resetWith_windowed (c : Config) : Windowed c [] (State.resetWith c) where
  cfg := rfl
  cur := (Nat.zero_mod _).symm
  slots := (oldestFirst_nil _ _).trans (lastCounts_nil _).symm
  vsum := by rw [lastCounts_nil, countSum_replicate_zero]; rfl

/-- The window is a matter of its RAM, its sum and its cursor alone. -/
theorem Windowed.congr (h : Windowed c counts s) (hcfg : t.cfg = s.cfg) (hcur : t.vwe.cur = s.vwe.cur)
    (hbuf : t.vwe.buf = s.vwe.buf) (hvsum : t.vwe.vsum = s.vwe.vsum) : Windowed c counts t where
  cfg := hcfg.trans h.cfg
  cur := hcur.trans h.cur
  slots := by rw [hbuf, hcur, h.slots]
  vsum := by rw [hvsum, h.vsum]

/-- A faulty tick takes no count in (R154). -/
theorem faultyTick_windowed (h : Windowed c counts s) : Windowed c counts (faultyTick s) := by
  rcases faultyTick_cases s with ⟨-, e⟩ | ⟨-, e⟩ <;> rw [e] <;> exact h.congr rfl rfl rfl rfl

/-- A normal tick takes its count in, and loses the oldest of the W before it (R155). -/
theorem normalTick_windowed (h : Windowed c counts s) (hwindow : s.WindowInv) (hcnt : s.vwe.cnt ≠ countSentinel) :
    Windowed c (counts ++ [s.vwe.cnt]) (normalTick s) := by
  obtain ⟨rfl, hcur, hslots, hvsum⟩ := h
  have htick := normalTick_slidTick s
  have ⟨_, _, hlt, _⟩ := hwindow
  have hlast : lastCounts s.par.windowLength (counts ++ [s.vwe.cnt])
      = (oldestFirst s.vwe.buf s.par.windowLength s.vwe.cur).tail ++ [s.vwe.cnt] := by
    rw [lastCounts_append_singleton (Nat.zero_lt_of_lt hlt), hslots]
  have hsum : wordValue s.vwe.vsum = slotValue s.vwe.buf s.vwe.cur
      + countSum (oldestFirst s.vwe.buf s.par.windowLength s.vwe.cur).tail := by
    rw [hvsum, ← hslots, oldestFirst_eq_cons s.vwe.buf hlt, countSum_cons, List.tail_cons, slotValue]
  refine ⟨htick.cfg, ?_, ?_, ?_⟩
  · rw [htick.cur, nextCursor, hcur, Nat.mod_add_mod, List.length_append, List.length_singleton]
  · rw [htick.buf, htick.cur, hlast]
    exact oldestFirst_write_nextCursor s.vwe.buf s.vwe.cnt hlt
  · rw [htick.vsum, slideWindow_vsum hwindow hcnt, hlast, hsum, countSum_append, countSum_cons]
    simp [countSum]

/-- The counts among those given that a tick takes in. -/
def normalCounts (counts : List Byte) : List Byte := counts.filter fun x => x != countSentinel

theorem tickUpdate_windowed (h : Windowed c counts s) (hwindow : s.WindowInv) (htick : tickUpdate s = .next t) :
    Windowed c (counts ++ normalCounts [s.vwe.cnt]) t := by
  have hticked : Windowed c counts s.ticked := h.congr rfl rfl rfl rfl
  obtain ⟨-, ⟨hcnt, rfl⟩ | ⟨hcnt, -, rfl⟩⟩ := tickUpdate_eq_next htick
  · simpa [normalCounts, hcnt] using faultyTick_windowed hticked
  · simpa [normalCounts, hcnt] using normalTick_windowed hticked hwindow hcnt

/-- A tick that ends Operational began so: it was not refused. -/
theorem exec_tick_windowed (h : s.status.fault = false → Windowed c counts s) (hwindow : s.WindowInv)
    (htick : exec .tick s = .next t) (hfault : t.status.fault = false) :
    Windowed c (counts ++ normalCounts [s.vwe.cnt]) t := by
  rcases gated_eq_next.1 htick with ⟨hrefused, rfl⟩ | ⟨hoperational, hnext⟩
  · exact Bool.noConfusion (hfault.symm.trans hrefused)
  · exact tickUpdate_windowed (h hoperational) hwindow hnext

/-- The state in which a tick of `tickSeq` finds the count `b`. -/
abbrev withCount (b : Byte) (s : State) : State := { s with vwe := { s.vwe with cnt := b } }

/-- The latch is lifted by no tick, so a run of ticks that ends Operational was Operational throughout. -/
theorem tickSeq_windowed (more : List Byte) (hs : s.Inv) (h : s.status.fault = false → Windowed c counts s) :
    ∃ t, tickSeq more s = .next t
      ∧ (t.status.fault = false → Windowed c (counts ++ normalCounts more) t) := by
  induction more generalizing s counts with
  | nil => exact ⟨s, rfl, by simpa [normalCounts] using h⟩
  | cons b bs ih =>
    have hfound : (withCount b s).Inv := hs
    have ⟨hwindow, _⟩ := hfound
    obtain ⟨u, htick⟩ := exec_completes .tick hfound
    obtain ⟨t, hrun, ht⟩ := ih (exec_inv hfound htick)
      (exec_tick_windowed (s := withCount b s) (fun hfault => (h hfault).congr rfl rfl rfl rfl) hwindow htick)
    have hcounts : counts ++ normalCounts (b :: bs) = counts ++ normalCounts [b] ++ normalCounts bs := by
      rw [List.append_assoc, normalCounts, normalCounts, normalCounts, ← List.filter_append, List.singleton_append]
    exact ⟨t, andThen_eq_next.2 ⟨u, htick, hrun⟩, hcounts ▸ ht⟩

end

/-- Settles O26: the reset window is that of no counts, and every tick takes its count in. -/
theorem slidingWindowSumsLastCounts : Obligations.SlidingWindowSumsLastCounts := by
  intro c counts
  obtain ⟨t, hrun, ht⟩ := tickSeq_windowed counts (resetWith_inv c) fun _ => resetWith_windowed c
  refine ⟨t, hrun, fun hfault => ?_⟩
  obtain ⟨-, hcur, -, hvsum⟩ := ht hfault
  exact ⟨hvsum.trans (countSum_lastCounts _ _), hcur⟩

end Sys2Proof.Proofs.VelocityWindow
end

section
/-! PROOFS. The statements of spec/42_pid.md: `SETPT` stores its target or faults (R181, R183), `PIDSTEP` computes every
value exactly (R184 to R189), and the integral stays within its bound (R190). -/

namespace Sys2Proof.Proofs.Pid

open Sys2Proof Sys2Proof.Machine Sys2Proof.Proofs.Registers Sys2Proof.Proofs.Encoding Sys2Proof.Proofs.VelocityWindow

variable {s t : State}

/-! ### `SETPT` (R181, R183) -/

theorem exec_setpt_of_operational (v : Word) (hfault : s.status.fault = false) :
    exec (.setpt v) s = .next (setpointUpdate v s) := gated_pure_of_operational hfault

theorem setpointUpdate_of_within {v : Word} (h : (wordValue v).natAbs ≤ s.par.setpointMax) :
    setpointUpdate v s = { s.perform with pid := { s.pid with setpoint := v } } := if_neg (Nat.not_lt.2 h)

theorem setpointUpdate_of_beyond {v : Word} (h : s.par.setpointMax < (wordValue v).natAbs) :
    setpointUpdate v s = s.perform.enterFault .setpointRange := if_pos h

/-- Settles O30: the gate, then the two outcomes of the range check. -/
theorem setptStoresOrFaults : Obligations.SetptStoresOrFaults := by
  intro v s
  refine ⟨exec_of_faulted nofun nofun, fun hfault hwithin => ?_, fun hfault hbeyond => ?_⟩
  · rw [exec_setpt_of_operational v hfault, setpointUpdate_of_within hwithin]
    rfl
  · rw [exec_setpt_of_operational v hfault, setpointUpdate_of_beyond hbeyond]
    rfl

/-! ### The bounds on the terms (R185, R187) -/

theorem natAbs_pidError_le (v : Word) (h : s.PidInv) :
    (pidError s (wordValue v)).natAbs ≤ s.par.setpointMax + 2 ^ 31 := by
  obtain ⟨-, hsetpoint, -, -⟩ := h
  have hv := wordValue_mem v
  unfold pidError
  omega

/-- The anti-windup clamp holds in every state: it asks nothing of the old integral. -/
theorem natAbs_pidIntegral_le (s : State) (current : Int) : (pidIntegral s current).natAbs ≤ s.par.iBound := by
  have hclamp := clamp_mem (v := wordValue s.pid.integral + pidError s current)
    (lo := -(s.par.iBound : Int)) (hi := s.par.iBound) (by omega)
  unfold pidIntegral
  omega

theorem natAbs_pidDerivative_le (v : Word) (h : s.PidInv) :
    (pidDerivative s (wordValue v)).natAbs ≤ 2 * (s.par.setpointMax + 2 ^ 31) := by
  have herror := natAbs_pidError_le v h
  obtain ⟨-, -, -, hlast⟩ := h
  unfold pidDerivative
  omega

theorem natAbs_mul_le_mul (gain : Int) {x : Int} {b : Nat} (h : x.natAbs ≤ b) :
    (gain * x).natAbs ≤ gain.natAbs * b := by
  rw [Int.natAbs_mul]
  exact Nat.mul_le_mul_left _ h

/-- 00_scope.md R12 clause (f), with the bound on each of the four products on its own. -/
theorem par_sum_fits (s : State) :
    s.par.kp.natAbs * (s.par.setpointMax + 2 ^ 31) + s.par.ki.natAbs * s.par.iBound
      + s.par.kd.natAbs * (2 * (s.par.setpointMax + 2 ^ 31)) + s.par.kf.natAbs * s.par.setpointMax < 2 ^ 63 := by
  have hok := s.cfg.property
  simp only [Params.ok, Params.okSum, Bool.and_eq_true, decide_eq_true_eq] at hok
  obtain ⟨-, hsum⟩ := hok
  calc _ = (s.par.kp.natAbs + 2 * s.par.kd.natAbs) * (s.par.setpointMax + 2 ^ 31)
        + s.par.ki.natAbs * s.par.iBound + s.par.kf.natAbs * s.par.setpointMax := by ring
    _ < 2 ^ 63 := hsum

/-- R185: the exact four-term sum fits 64 signed bits. -/
theorem natAbs_pidAcc_lt (v : Word) (h : s.PidInv) : (pidAcc s (wordValue v)).natAbs < 2 ^ 63 := by
  have hkp := natAbs_mul_le_mul s.par.kp (natAbs_pidError_le v h)
  have hki := natAbs_mul_le_mul s.par.ki (natAbs_pidIntegral_le s (wordValue v))
  have hkd := natAbs_mul_le_mul s.par.kd (natAbs_pidDerivative_le v h)
  obtain ⟨-, hsetpoint, -, -⟩ := h
  have hkf := natAbs_mul_le_mul s.par.kf hsetpoint
  have hfits := par_sum_fits s
  unfold pidAcc
  omega

theorem natAbs_asr_le (v : Int) (n : Nat) : (asr v n).natAbs ≤ v.natAbs := Int.natAbs_ediv_le_natAbs _ _

/-! ### What `PIDSTEP` stores (R184, R189) -/

/-- Clamping to ±`b` gives a number that a 32-bit register holding `b` stores exactly. -/
theorem wordValue_toWord_clamp (v : Int) {b : Nat} (hb : b < 2 ^ 31) :
    wordValue (toWord (clamp v (-b) b)) = clamp v (-b) b := by
  have hclamp := clamp_mem (v := v) (lo := -(b : Int)) (hi := b) (by omega)
  exact wordValue_toWord (by omega) (by omega)

/-- The integral never wraps, in any state and for any error (R187). -/
theorem pidUpdate_integral (s : State) (current : Int) :
    wordValue (pidUpdate s current).pid.integral = pidIntegral s current :=
  wordValue_toWord_clamp _ (par_bounds s).iBound_fits

/-- The difference of two 32-bit values fits 64 bits. -/
theorem pidUpdate_lastError (s : State) (v : Word) :
    dwordValue (pidUpdate s (wordValue v)).pid.lastError = pidError s (wordValue v) := by
  have hsetpoint := wordValue_mem s.pid.setpoint
  have hv := wordValue_mem v
  exact dwordValue_toDWord (by unfold pidError; omega) (by unfold pidError; omega)

theorem pidUpdate_pidRaw (v : Word) (h : s.PidInv) :
    dwordValue (pidUpdate s (wordValue v)).pid.pidRaw = asr (pidAcc s (wordValue v)) s.par.scaleShift := by
  have hacc := natAbs_pidAcc_lt v h
  have hasr := natAbs_asr_le (pidAcc s (wordValue v)) s.par.scaleShift
  exact dwordValue_toDWord (by omega) (by omega)

theorem pidUpdate_pidOut (v : Word) (h : s.PidInv) :
    wordValue (pidUpdate s (wordValue v)).pid.pidOut
      = clamp (asr (pidAcc s (wordValue v)) s.par.scaleShift) (-s.par.throttleMax) s.par.throttleMax := by
  rw [← pidUpdate_pidRaw v h]
  exact wordValue_toWord_clamp _ (par_bounds s).throttle_fits

/-- Settles O31: the four registers are exact, the sum fits, and the rest is the frame of the control step. -/
theorem pidstepComputesExactly : Obligations.PidstepComputesExactly := by
  intro v s
  refine ⟨exec_of_faulted nofun nofun, fun ⟨_, _, hpid, _⟩ hfault => ?_⟩
  have hacc := natAbs_pidAcc_lt v hpid
  have hlow : -2 ^ 63 ≤ pidAcc s (wordValue v) := by omega
  have hhigh : pidAcc s (wordValue v) < 2 ^ 63 := by omega
  exact ⟨pidUpdate s (wordValue v), exec_pidstep_of_operational v hfault,
    ⟨pidUpdate_integral s _, pidUpdate_lastError s v, hlow, hhigh, pidUpdate_pidRaw v hpid, pidUpdate_pidOut v hpid⟩,
    rfl, rfl, rfl, rfl, rfl, rfl, rfl, rfl⟩

/-! ### The integral at its bound (R190) -/

theorem clamp_of_ge {v lo hi : Int} (hlohi : lo ≤ hi) (h : hi ≤ v) : clamp v lo hi = hi := by
  unfold clamp
  rw [if_neg (by omega)]
  split <;> omega

theorem clamp_of_le {v lo hi : Int} (h : v ≤ lo) (hlohi : lo ≤ hi) : clamp v lo hi = lo := by
  unfold clamp
  split
  · rfl
  · rw [if_neg (by omega)]
    omega

theorem pidIntegral_of_max {current : Int} (hmax : wordValue s.pid.integral = s.par.iBound)
    (herror : 0 ≤ pidError s current) : pidIntegral s current = wordValue s.pid.integral := by
  rw [pidIntegral, hmax]
  exact clamp_of_ge (by omega) (by omega)

theorem pidIntegral_of_min {current : Int} (hmin : wordValue s.pid.integral = -s.par.iBound)
    (herror : pidError s current ≤ 0) : pidIntegral s current = wordValue s.pid.integral := by
  rw [pidIntegral, hmin]
  exact clamp_of_le (by omega) (by omega)

/-- The register keeps its bits when the new integral has the old value. -/
theorem pidUpdate_integral_unchanged {current : Int} (h : pidIntegral s current = wordValue s.pid.integral) :
    (pidUpdate s current).pid.integral = s.pid.integral :=
  BitVec.eq_of_toInt_eq ((pidUpdate_integral s current).trans h)

/-- Settles O32: the new integral is a clamped value in every Operational state, and the clamp keeps a bound that the
error pushes against. -/
theorem integralStaysWithinBound : Obligations.IntegralStaysWithinBound := by
  intro v s t hfault h
  obtain rfl : t = pidUpdate s (wordValue v) := eq_of_gated_pure (f := (pidUpdate · (wordValue v))) hfault h
  refine ⟨?_, fun hmax herror => ?_, fun hmin herror => ?_⟩
  · exact wordValue_toWord_clamp_natAbs_le _ (par_bounds s).iBound_fits
  · exact pidUpdate_integral_unchanged (pidIntegral_of_max hmax herror)
  · exact pidUpdate_integral_unchanged (pidIntegral_of_min hmin herror)

end Sys2Proof.Proofs.Pid
end

section
/-! PROOFS. The statements of spec/43_packet_framer.md: the CRC by table (R203), stuffing and de-stuffing (R205 to
R207), what the transmit half frames (R208 to R214, R227 to R232), and that the framer and the motor side leave each other
(R226). -/

namespace Sys2Proof.Proofs.PacketFramer

open Sys2Proof Sys2Proof.Machine Sys2Proof.Proofs.Scope Sys2Proof.Proofs.Registers Sys2Proof.Proofs.Concurrency
  Sys2Proof.Proofs.Encoding

variable {s t : State}

/-! ### Two bytes as a 16-bit field (20_memory.md R67) -/

theorem toNat_ofBytes (lo hi : Byte) : (ofBytes lo hi).toNat = lo.toNat + 256 * hi.toNat := by
  have hlo := lo.isLt
  refine (BitVec.toNat_append hi lo).trans ?_
  rw [← Nat.shiftLeft_add_eq_or_of_lt hlo, Nat.shiftLeft_eq]
  omega

theorem ofBytes_xor (lo hi lo' hi' : Byte) :
    ofBytes lo hi ^^^ ofBytes lo' hi' = ofBytes (lo ^^^ lo') (hi ^^^ hi') := BitVec.xor_append

/-! ### The CRC (43_packet_framer.md R202 to R204)

A shift of R202 is linear over XOR. The running value with a byte at its top is the XOR of the byte's table index at the
top, which the table answers, and the running value's low byte, out of which eight shifts push no bit. -/

theorem crcByte_eq_iterate (poly c : Half) (b : Byte) :
    crcByte poly c b = (crcShift poly)^[8] (c ^^^ ofBytes 0 b) := rfl

theorem crcShift_xor (poly x y : Half) : crcShift poly (x ^^^ y) = crcShift poly x ^^^ crcShift poly y := by
  have hcancel : ∀ u v : Half, u ^^^ poly ^^^ (v ^^^ poly) = u ^^^ v := fun u v => by
    rw [BitVec.xor_comm v, ← BitVec.xor_assoc, BitVec.xor_assoc u, BitVec.xor_self, BitVec.xor_zero]
  unfold crcShift
  rw [BitVec.msb_xor, BitVec.shiftLeft_xor_distrib]
  cases x.msb <;> cases y.msb
  · rfl
  · exact BitVec.xor_assoc ..
  · exact (BitVec.xor_assoc ..).trans ((congrArg _ (BitVec.xor_comm ..)).trans (BitVec.xor_assoc ..).symm)
  · exact (hcancel _ _).symm

theorem crcShift_iterate_xor (poly : Half) (k : Nat) (x y : Half) :
    (crcShift poly)^[k] (x ^^^ y) = (crcShift poly)^[k] x ^^^ (crcShift poly)^[k] y := by
  induction k generalizing x y with
  | zero => rfl
  | succ k ih => simp only [Function.iterate_succ_apply, crcShift_xor, ih]

/-- Shifts that push no bit out leave the generator out. -/
theorem crcShift_iterate_of_small (poly : Half) {k : Nat} {x : Half} (h : x.toNat * 2 ^ k < 2 ^ 16) :
    (crcShift poly)^[k] x = x <<< k := by
  induction k generalizing x with
  | zero => simp
  | succ k ih =>
    have hpow : 2 * x.toNat * 2 ^ k < 2 ^ 16 := by rw [pow_succ] at h; linarith
    have hsmall : 2 * x.toNat < 2 ^ 16 := lt_of_le_of_lt (Nat.le_mul_of_pos_right _ (by positivity)) hpow
    have hmsb : x.msb = false := by rw [BitVec.msb_eq_decide]; simp; omega
    have hdouble : (x <<< 1).toNat = 2 * x.toNat := by
      rw [BitVec.toNat_shiftLeft, Nat.shiftLeft_eq]; omega
    have hshift : crcShift poly x = x <<< 1 := by simp [crcShift, hmsb]
    rw [Function.iterate_succ_apply, hshift, ih (by rwa [hdouble]), ← BitVec.shiftLeft_add, Nat.add_comm 1]

/-- The running value with the byte entered splits into the table's index at the top and the low byte. -/
theorem xor_ofBytes_eq (c : Half) (b : Byte) :
    c ^^^ ofBytes 0 b = ofBytes 0 (highByte c ^^^ b) ^^^ ofBytes (lowByte c) 0 := by
  conv_lhs => rw [← ofBytes_lowByte_highByte c]
  rw [ofBytes_xor, ofBytes_xor]
  simp

theorem crcTable_eq_iterate (poly : Half) (i : Byte) : crcTable poly i = (crcShift poly)^[8] (ofBytes 0 i) :=
  congrArg (crcShift poly)^[8] BitVec.zero_xor

theorem shiftLeft_ofBytes_lowByte (c : Half) : ofBytes (lowByte c) 0 <<< 8 = c <<< 8 := by
  have hc := toNat_ofBytes (lowByte c) (highByte c)
  rw [ofBytes_lowByte_highByte] at hc
  apply BitVec.eq_of_toNat_eq
  simp only [BitVec.toNat_shiftLeft, Nat.shiftLeft_eq, toNat_ofBytes, hc]
  omega

/-- Settles O33: the eight shifts act on the two parts of the value separately. -/
theorem crcTableEqualsBitwiseUpdate : Obligations.CrcTableEqualsBitwiseUpdate := by
  intro poly c b
  have hsmall : (ofBytes (lowByte c) 0).toNat * 2 ^ 8 < 2 ^ 16 := by
    have := (lowByte c).isLt
    rw [toNat_ofBytes]
    simp
    omega
  have hlow : (crcShift poly)^[8] (ofBytes (lowByte c) 0) = c <<< 8 := by
    rw [crcShift_iterate_of_small poly hsmall, shiftLeft_ofBytes_lowByte]
  rw [crcByte_eq_iterate, xor_ofBytes_eq, crcShift_iterate_xor, ← crcTable_eq_iterate, hlow, BitVec.xor_comm]
  rfl

/-! ### Stuffing (43_packet_framer.md R205 to R207) -/

/-- Settles O34, the count from an empty match on. -/
theorem stuffingInsertsAtMostOneInThree : Obligations.StuffingInsertsAtMostOneInThree := fun ps => by
  simpa [stuff] using stuffFrom_length 0 ps

/-- Settles O36: both automata start at an empty match. -/
theorem destuffUndoesStuff : Obligations.DestuffUndoesStuff := fun ps => destuffFrom_stuffFrom ps (by decide)

/-- `FF FF FD` after bytes that do not end in a whole pattern completes one, and no part of it does. -/
theorem win_pattern : ∀ m : Fin 4, m ≠ 3 →
    win m 0xFF ≠ 3 ∧ win (win m 0xFF) 0xFF ≠ 3 ∧ win (win (win m 0xFF) 0xFF) 0xFD = 3 := by
  decide

theorem destuffFrom_three_cons (b : Byte) (bs : List Byte) :
    destuffFrom 3 (b :: bs) = if b = 0xFD then destuffFrom 0 bs else none := rfl

theorem destuffFrom_cons {m : Fin 4} (h : m ≠ 3) (b : Byte) (bs : List Byte) :
    destuffFrom m (b :: bs) = (destuffFrom (win m b) bs).map (b :: ·) := if_neg h

/-- What de-stuffing accepts, from any match count on, has `FD` after every `FF FF FD`. -/
theorem destuffFrom_escaped {m : Fin 4} {before after ps : List Byte}
    (h : destuffFrom m (before ++ [0xFF, 0xFF, 0xFD] ++ after) = some ps) : ∃ rest, after = 0xFD :: rest := by
  induction before generalizing m ps with
  | nil =>
    have hm : m ≠ 3 := by rintro rfl; simp [destuffFrom_three_cons] at h
    obtain ⟨h1, h2, h3⟩ := win_pattern m hm
    simp only [List.nil_append, List.cons_append, destuffFrom_cons hm, destuffFrom_cons h1, destuffFrom_cons h2,
      h3] at h
    cases after with
    | nil => cases h
    | cons b rest =>
      rw [destuffFrom_three_cons] at h
      split at h
      · rename_i hb
        exact ⟨rest, by rw [hb]⟩
      · cases h
  | cons b before ih =>
    simp only [List.cons_append, destuffFrom] at h
    split at h
    · split at h
      · exact ih h
      · cases h
    · obtain ⟨qs, hqs, -⟩ := Option.map_eq_some_iff.1 h
      exact ih hqs

/-- Settles O35: de-stuffing accepts what stuffing makes, and it accepts no unescaped pattern. -/
theorem stuffedBytesNeverHoldHeader : Obligations.StuffedBytesNeverHoldHeader := fun ps _ _ h =>
  destuffFrom_escaped (m := 0) (h ▸ destuffUndoesStuff ps)

/-! ### The frame of a packet (43_packet_framer.md R210, R211) -/

theorem framePre_length (id instr : Byte) (params : List Byte) :
    (framePre id instr params).length = 8 + params.length + (stuff params).2 := by
  obtain ⟨hlength, -⟩ := stuffFrom_length 0 params
  simp only [framePre, stuff, header, List.length_append, List.length_cons, List.length_nil]
  omega

theorem framePacket_length (p : Params) (id instr : Byte) (params : List Byte) :
    (framePacket p id instr params).length = 10 + params.length + (stuff params).2 := by
  rw [framePacket, List.length_append, framePre_length]
  simp only [crcField, List.length_cons, List.length_nil]
  omega

theorem staged_length (x : Tx) : x.staged.length = x.pn.val := by
  simp only [Tx.staged, List.length_take, Vector.length_toList]
  omega

/-! ### The transmit half's operations -/

/-- `PPUSH` with room in the staging file. -/
theorem stageByte_of_room (b : Byte) (h : s.tx.pn.val < 8) :
    stageByte b s = { s.perform with tx := { s.tx with
      p := s.tx.p.set s.tx.pn.val b, pn := ⟨s.tx.pn.val + 1, by omega⟩ } } := dif_pos h

theorem stageByte_of_full (b : Byte) (h : s.tx.pn.val = 8) : stageByte b s = s.refuse := dif_neg (by omega)

/-- Settles O37: the file is full or has room. -/
theorem ppushStagesOrRefuses : Obligations.PpushStagesOrRefuses := by
  refine fun b s => ⟨fun h => ?_, fun hfault hroom => ?_⟩
  · cases hfault : s.status.fault with
    | true => exact exec_of_faulted nofun nofun hfault
    | false =>
      have hfull : s.tx.pn.val = 8 := h.resolve_left (by simp [hfault])
      exact (gated_pure_of_operational hfault).trans (congrArg _ (stageByte_of_full b hfull))
  · refine ⟨_, (gated_pure_of_operational hfault).trans (congrArg _ (stageByte_of_room b hroom)), ?_⟩
    simp [Vector.toList_set]

/-- Settles O38: below the gate `PCLR` always completes. -/
theorem pclrEmptiesStaging : Obligations.PclrEmptiesStaging := fun _ =>
  ⟨exec_of_faulted nofun nofun, gated_pure_of_operational⟩

/-- What `BUILD` leaves in the transmit buffer: the packet, and above it what was there. -/
theorem buildPacket_txPacket (id instr : Byte) (s : State) :
    (buildPacket id instr s).txPacket = framePacket s.par id instr s.tx.staged :=
  Memory.readBytes_writeBytes _ _

theorem buildPacket_len (id instr : Byte) (s : State) :
    (buildPacket id instr s).tx.len = 10 + s.tx.pn.val + (stuff s.tx.staged).2 := by
  rw [← staged_length]
  exact framePacket_length s.par id instr s.tx.staged

theorem buildPacket_read_above (id instr : Byte) (s : State) {a : Nat} (h : (buildPacket id instr s).tx.len ≤ a) :
    (buildPacket id instr s).tx.buf.read a = s.tx.buf.read a :=
  (Memory.read_writeBytes _ _ _ _).trans (if_neg fun hbelow => by
    have hlen : (buildPacket id instr s).tx.len = (framePacket s.par id instr s.tx.staged).length := rfl
    omega)

/-- Settles O39: the packet stands in the buffer as far as it was written, and `PN` is the number of staged bytes. -/
theorem buildFramesStagedParameters : Obligations.BuildFramesStagedParameters := by
  refine fun id instr s => ⟨exec_of_faulted nofun nofun, fun hfault => ?_⟩
  refine ⟨buildPacket id instr s, gated_pure_of_operational hfault, ⟨buildPacket_len id instr s, ?_⟩,
    fun a => buildPacket_read_above id instr s, rfl, rfl, rfl, rfl, rfl, rfl, rfl, rfl, rfl, rfl⟩
  rw [buildPacket_txPacket, framePacket, framePre, staged_length]
  rfl

/-! ### The sent packet instructions (43_packet_framer.md R227 to R232) -/

theorem take_succ_set {l : List Byte} {n : Nat} {b : Byte} (h : n < l.length) :
    (l.set n b).take (n + 1) = l.take n ++ [b] := by
  rw [List.take_add_one, List.take_set_of_le (le_refl n), List.getElem?_set_self h]
  rfl

/-- Staging parameters that fit puts them after those already staged and leaves the rest of the file. -/
theorem stageBytes_of_room (params : List Byte) (h : s.tx.pn.val + params.length ≤ 8) :
    (stageBytes params s).tx.pn.val = s.tx.pn.val + params.length
      ∧ (stageBytes params s).tx.p.toList
        = s.tx.p.toList.take s.tx.pn.val ++ params ++ s.tx.p.toList.drop (s.tx.pn.val + params.length) := by
  induction params generalizing s with
  | nil => simp
  | cons b bs ih =>
    simp only [List.length_cons] at h
    rw [stageBytes_cons, stageByte_of_room b (by omega)]
    obtain ⟨hpn, hp⟩ := ih (s := { s.perform with tx := { s.tx with
      p := s.tx.p.set s.tx.pn.val b, pn := ⟨s.tx.pn.val + 1, by omega⟩ } }) (by simp only; omega)
    refine ⟨by rw [hpn]; simp only [List.length_cons]; omega, ?_⟩
    have hlength : s.tx.pn.val < s.tx.p.toList.length := by rw [Vector.length_toList]; omega
    rw [hp, List.length_cons, List.append_cons, Nat.add_comm bs.length, ← Nat.add_assoc]
    simp only [Vector.toList_set]
    rw [List.drop_set_of_lt (by omega), take_succ_set hlength]

/-- The bytes staged by `SEND` are its parameters, and the file behind them is as it was. -/
theorem stageBytes_clearStaging {params : List Byte} (h : params.length ≤ 8) (s : State) :
    (stageBytes params (clearStaging s)).tx.staged = params
      ∧ (stageBytes params (clearStaging s)).tx.p.toList = params ++ s.tx.p.toList.drop params.length := by
  obtain ⟨hpn, hp⟩ := stageBytes_of_room (s := clearStaging s) params (by simpa [clearStaging] using h)
  simp only [clearStaging, Fin.val_zero, Nat.zero_add, List.take_zero, List.nil_append] at hpn hp
  exact ⟨by rw [Tx.staged, clearStaging, hpn, hp, List.take_left], hp⟩

/-- The transmit half after `SEND` is that after its `BUILD`. -/
theorem sendPacket_tx (id instr : Byte) (params : List Byte) (s : State) :
    (sendPacket id instr params s).tx = (buildPacket id instr (stageBytes params (clearStaging s))).tx := by
  unfold sendPacket
  simp only
  split <;> rfl

theorem sendPacket_rx (id instr : Byte) (params : List Byte) (s : State) :
    (sendPacket id instr params s).rx = if id = broadcastId then s.rx else s.rx.arm s.par id := by
  obtain ⟨hcfg, -, -, -, -, hrx, -⟩ := stageBytes_frame params (clearStaging s)
  unfold sendPacket
  simp only
  split
  · exact hrx
  · exact congrArg₂ (fun (c : Config) x => Rx.arm c.val x id) hcfg hrx

/-- What a packet sent from any state leaves in the framer, when its parameters fit. -/
structure Sent (id instr : Byte) (params : List Byte) (s t : State) : Prop where
  packet : t.txPacket = framePacket s.par id instr params
  len : t.tx.len = 10 + params.length + (stuff params).2
  valid : t.tx.valid = true
  pn : t.tx.pn = 0
  p : t.tx.p.toList = params ++ s.tx.p.toList.drop params.length
  above : ∀ a, t.tx.len ≤ a → t.tx.buf.read a = s.tx.buf.read a

theorem sendPacket_sent (id instr : Byte) {params : List Byte} (h : params.length ≤ 8) (s : State) :
    Sent id instr params s (sendPacket id instr params s) := by
  obtain ⟨hstaged, hp⟩ := stageBytes_clearStaging h s
  obtain ⟨hcfg, -, -, -, -, -, -, -, hbuf, -⟩ := stageBytes_frame params (clearStaging s)
  have htx := sendPacket_tx id instr params s
  have hpar : (stageBytes params (clearStaging s)).par = s.par := congrArg Subtype.val hcfg
  have hpacket := buildPacket_txPacket id instr (stageBytes params (clearStaging s))
  have hlen := buildPacket_len id instr (stageBytes params (clearStaging s))
  rw [hstaged, hpar] at hpacket
  rw [← staged_length, hstaged] at hlen
  constructor
  case packet => rw [State.txPacket, htx]; exact hpacket
  case len => rw [htx]; exact hlen
  case valid => rw [htx]; rfl
  case pn => rw [htx]; rfl
  case p => rw [htx]; exact hp
  case above =>
    intro a ha
    rw [htx] at ha ⊢
    rw [buildPacket_read_above id instr _ ha, hbuf]
    rfl

/-- Each of the four forms is `SEND` with its instruction byte. -/
theorem exec_sent_of_operational {id instr : Byte} {i : Instr} {params : List Byte} (hfault : s.status.fault = false)
    (hi : (i = .pktWrite id params ∧ instr = 0x03) ∨ (i = .pktRegWrite id params ∧ instr = 0x04)
      ∨ (i = .pktAction id params ∧ instr = 0x05) ∨ (i = .pktFactoryReset id params ∧ instr = 0x06)) :
    exec i s = .next (sendPacket id instr params s) := by
  rcases hi with ⟨rfl, rfl⟩ | ⟨rfl, rfl⟩ | ⟨rfl, rfl⟩ | ⟨rfl, rfl⟩ <;> exact gated_pure_of_operational hfault

theorem status_eq_performed {x y : Status} (hfault : x.fault = y.fault) (hcause : x.cause = y.cause)
    (hop : x.opOk = true) : x = { y with opOk := true } := by
  cases x
  simp_all

/-- Settles O50: `SEND` stages the parameters in the emptied file, and its `BUILD` frames them. -/
theorem packetSendFramesPacket : Obligations.PacketSendFramesPacket := by
  intro id instr i params s hfault hfit hi
  obtain ⟨hpacket, hlen, hvalid, hpn, hp, habove⟩ := sendPacket_sent id instr hfit s
  obtain ⟨hcfg, hport, hhtc, hvwe, hpid, hlatch, hcause, hop⟩ := sendPacket_frame id instr params s
  have hrx := sendPacket_rx id instr params s
  exact ⟨_, exec_sent_of_operational hfault hi, hpacket, hlen, hvalid, hpn, hp, habove,
    fun hid => hrx.trans (if_pos hid), fun hid => hrx.trans (if_neg hid),
    status_eq_performed hlatch hcause hop, hcfg, hport, hhtc, hvwe, hpid⟩

/-! ### The framer and the motor side (43_packet_framer.md R226, 20_memory.md R74) -/

/-- Settles O58: a refusal leaves both sides, and the answer of a motor operation has the framer half it began with. -/
theorem framerAndMotorLeaveEachOther : Obligations.FramerAndMotorLeaveEachOther := by
  refine fun i s t h => ⟨fun hi => ?_, fun hi => ?_⟩
  · obtain ⟨-, hhtc, hvwe, hpid, hfault, hcause⟩ := exec_framer_sameMotor hi h
    exact ⟨hhtc, hvwe, hpid, hfault, hcause⟩
  · cases hfault : s.status.fault with
    | false =>
      rw [exec_motor_answer hi hfault h]
      exact ⟨rfl, rfl⟩
    | true =>
      have hrefused := exec_of_faulted (i := i) (by rintro rfl; cases hi) (by rintro rfl; cases hi) hfault
      cases hrefused.symm.trans h
      exact ⟨rfl, rfl⟩

end Sys2Proof.Proofs.PacketFramer
end

section
/-! PROOFS. The statements of spec/43_packet_framer.md about the receive half: `RXARM` (R215), one received byte in
every parser state (R216 to R224), and the end of a reception by timeout (R225). -/

namespace Sys2Proof.Proofs.PacketReceiver

open Sys2Proof Sys2Proof.Machine Sys2Proof.Proofs.Encoding Sys2Proof.Proofs.PacketFramer

variable {s : State} {p : Params} {x y : Rx} {b : Byte}

/-! ### The receive half on its own -/

/-- The state with another receive half, after an operation that was performed. -/
def withRx (s : State) (x : Rx) : State := { s.perform with rx := x }

/-- What one byte makes of the receive half: nothing where the byte is refused (R216), and nothing in PARAMS with no
byte to come. -/
def receiverStep (p : Params) (x : Rx) (b : Byte) : Option Rx :=
  match x.state with
  | .idle => none
  | .hunt => some (x.huntStep p b)
  | .id => some (x.idStep p b)
  | .lenLo => some (x.lenLoStep p b)
  | .lenHi => some (x.lenHiStep p b)
  | .instr => some (x.instrStep p b)
  | .params => if x.rem = 0 then none else some (x.paramsStep p b)
  | .crcLo => some (x.crcLoStep b)
  | .crcHi => some (x.crcHiStep p b)
  | .done => none

theorem feedByte_of_receiverStep (h : receiverStep s.par s.rx b = some y) : feedByte b s = .next (withRx s y) := by
  cases hstate : s.rx.state <;> simp only [receiverStep, hstate] at h
  case params =>
    split at h
    · cases h
    · rename_i hrem
      cases h
      simp only [feedByte, hstate, if_neg hrem]; rfl
  case idle | done => cases h
  all_goals cases h; simp only [feedByte, hstate]; rfl

theorem exec_rxbyte_of_operational (b : Byte) (hfault : s.status.fault = false) : exec (.rxbyte b) s = feedByte b s :=
  gated_of_operational hfault

theorem exec_rxbyte_of_receiverStep (hfault : s.status.fault = false) (h : receiverStep s.par s.rx b = some y) :
    exec (.rxbyte b) s = .next (withRx s y) :=
  (exec_rxbyte_of_operational b hfault).trans (feedByte_of_receiverStep h)

/-! ### Refusals, `RXARM` and `RXTMO` -/

theorem feedByte_of_inactive (b : Byte) (h : s.rx.state = .idle ∨ s.rx.state = .done) :
    feedByte b s = .next s.refuse := by
  rcases h with h | h <;> simp only [feedByte, h]

/-- Settles O41: the gate refuses in the Faulted state, line 2 of R216 in IDLE and DONE. -/
theorem rxbyteRefusedWhenInactive : Obligations.RxbyteRefusedWhenInactive := by
  intro b s h
  cases hfault : s.status.fault with
  | true => exact exec_of_faulted nofun nofun hfault
  | false =>
    have hinactive := h.resolve_left (by simp [hfault])
    exact (exec_rxbyte_of_operational b hfault).trans (feedByte_of_inactive b hinactive)

/-- Settles O40: below the gate `RXARM` reads no parser state. -/
theorem rxarmStartsReception : Obligations.RxarmStartsReception := fun _ _ =>
  ⟨exec_of_faulted nofun nofun, gated_pure_of_operational⟩

/-- Settles O48: an active parser fails with Timeout, an inactive one refuses. -/
theorem rxtmoEndsReception : Obligations.RxtmoEndsReception := by
  refine fun s => ⟨fun h => ?_, fun hfault hidle hdone => ?_⟩
  · cases hfault : s.status.fault with
    | true => exact exec_of_faulted nofun nofun hfault
    | false =>
      have hinactive : receiveTimeout s = s.refuse := if_pos (h.resolve_left (by simp [hfault]))
      exact (gated_pure_of_operational hfault).trans (congrArg _ hinactive)
  · have hactive : receiveTimeout s = withRx s (s.rx.fail .timeout) := if_neg (not_or.2 ⟨hidle, hdone⟩)
    exact (gated_pure_of_operational hfault).trans (congrArg _ hactive)

/-! ### HUNT (43_packet_framer.md R217) -/

theorem receiverStep_hunt (hstate : x.state = .hunt) (b : Byte) : receiverStep p x b = some (x.huntStep p b) := by
  simp only [receiverStep, hstate]

theorem huntStep_zero (h : x.hdr = 0) (b : Byte) :
    x.huntStep p b = { x with hdr := if b = 0xFF then 1 else 0 } := by
  simp only [Rx.huntStep, h]

theorem huntStep_one (h : x.hdr = 1) (b : Byte) :
    x.huntStep p b = { x with hdr := if b = 0xFF then 2 else 0 } := by
  simp only [Rx.huntStep, h]

theorem huntStep_two (h : x.hdr = 2) (b : Byte) :
    x.huntStep p b = { x with hdr := if b = 0xFF then 2 else if b = 0xFD then 3 else 0 } := by
  simp only [Rx.huntStep, h]

theorem huntStep_complete (h : x.hdr = 3) :
    x.huntStep p 0x00 = { x with hdr := 0, crc := crcHdr p, state := .id } := by
  simp only [Rx.huntStep, h, if_true]

theorem huntStep_restart (h : x.hdr = 3) (hb : b ≠ 0x00) :
    x.huntStep p b = { x with hdr := if b = 0xFF then 1 else 0 } := by
  simp only [Rx.huntStep, h, if_neg hb]

/-- Settles O42, by the match count. -/
theorem rxbyteHuntsForHeader : Obligations.RxbyteHuntsForHeader := by
  intro b s hfault hstate
  have hexec := exec_rxbyte_of_receiverStep hfault (receiverStep_hunt hstate b)
  refine ⟨fun h => ?_, fun h => ?_, fun h => ?_, fun h hb => ?_, fun h hb => ?_⟩
  · rw [hexec, huntStep_zero h]; rfl
  · rw [hexec, huntStep_one h]; rfl
  · rw [hexec, huntStep_two h]; rfl
  · subst hb; rw [hexec, huntStep_complete h]; rfl
  · rw [hexec, huntStep_restart h hb]; rfl

/-! ### ID (43_packet_framer.md R218) -/

theorem receiverStep_id (hstate : x.state = .id) (b : Byte) : receiverStep p x b = some (x.idStep p b) := by
  simp only [receiverStep, hstate]

theorem idStep_expected (h : b = x.expect) :
    x.idStep p b = { x with id := b, crc := crcByte p.crcPoly x.crc b, state := .lenLo } :=
  if_neg (not_not.2 h)

theorem idStep_other (h : b ≠ x.expect) :
    x.idStep p b = { x with id := b, crc := crcByte p.crcPoly x.crc b, state := .done, done := true, ok := false,
                            cause := .idMismatch } :=
  if_pos h

/-- Settles O43: the two outcomes of the comparison. -/
theorem rxbyteChecksId : Obligations.RxbyteChecksId := by
  intro b s hfault hstate
  have hexec := exec_rxbyte_of_receiverStep hfault (receiverStep_id hstate b)
  refine ⟨fun h => ?_, fun h => ?_⟩
  · rw [hexec, idStep_expected h]; rfl
  · rw [hexec, idStep_other h]; rfl

/-! ### LEN_LO and LEN_HI (43_packet_framer.md R219, R220) -/

theorem receiverStep_lenLo (hstate : x.state = .lenLo) (b : Byte) :
    receiverStep p x b = some (x.lenLoStep p b) := by
  simp only [receiverStep, hstate]

theorem receiverStep_lenHi (hstate : x.state = .lenHi) (b : Byte) :
    receiverStep p x b = some (x.lenHiStep p b) := by
  simp only [receiverStep, hstate]

/-- The high byte over a length of one byte. -/
theorem toNat_add_highByte {l : Half} (h : l.toNat < 256) (b : Byte) :
    (l + (b ++ 0x00#8)).toNat = l.toNat + 256 * b.toNat := by
  have hhigh : (b ++ 0x00#8 : Half).toNat = 256 * b.toNat := (toNat_ofBytes 0 b).trans (by simp)
  have hb := b.isLt
  rw [BitVec.toNat_add, hhigh]
  omega

theorem lenHiStep_legal (hlow : 3 ≤ (x.len + (b ++ 0x00#8)).toNat) (hhigh : (x.len + (b ++ 0x00#8)).toNat ≤ 13) :
    x.lenHiStep p b = { x.addCrc p b with
      len := x.len + (b ++ 0x00#8)
      rem := ⟨(x.len + (b ++ 0x00#8)).toNat - 3, by omega⟩
      state := .instr } :=
  dif_pos ⟨hlow, hhigh⟩

theorem lenHiStep_illegal (h : ¬ (3 ≤ (x.len + (b ++ 0x00#8)).toNat ∧ (x.len + (b ++ 0x00#8)).toNat ≤ 13)) :
    x.lenHiStep p b = Rx.fail { x.addCrc p b with len := x.len + (b ++ 0x00#8) } .badLength :=
  dif_neg h

/-- Settles O44: the sum of the two length bytes is exact, and it is legal or not. -/
theorem rxbyteTakesLength : Obligations.RxbyteTakesLength := by
  refine fun b s hfault => ⟨fun hstate => ?_, fun hstate hone => ?_⟩
  · exact exec_rxbyte_of_receiverStep hfault (receiverStep_lenLo hstate b)
  · have hlen := toNat_add_highByte hone b
    refine ⟨_, exec_rxbyte_of_receiverStep hfault (receiverStep_lenHi hstate b), ?_⟩
    by_cases hlegal : 3 ≤ (s.rx.len + (b ++ 0x00#8)).toNat ∧ (s.rx.len + (b ++ 0x00#8)).toNat ≤ 13
    · rw [lenHiStep_legal hlegal.1 hlegal.2]
      refine ⟨hlen, rfl, fun _ => ⟨rfl, rfl, rfl, rfl, rfl⟩, fun hillegal => ?_, rfl, rfl, rfl, rfl, rfl, rfl, rfl,
        rfl, rfl, rfl, rfl, rfl, rfl, rfl, rfl⟩
      simp only [withRx] at hillegal
      omega
    · rw [lenHiStep_illegal hlegal]
      exact ⟨hlen, rfl, fun h => absurd h hlegal, fun _ => ⟨rfl, rfl, rfl, rfl, rfl⟩, rfl, rfl, rfl, rfl, rfl, rfl, rfl,
        rfl, rfl, rfl, rfl, rfl, rfl, rfl, rfl⟩

/-! ### INSTR (43_packet_framer.md R221) -/

theorem receiverStep_instr (hstate : x.state = .instr) (b : Byte) :
    receiverStep p x b = some (x.instrStep p b) := by
  simp only [receiverStep, hstate]

theorem instrStep_other (h : b ≠ statusInstr) :
    x.instrStep p b = Rx.fail { x.addCrc p b with instr := b } .instrMismatch :=
  if_pos h

theorem instrStep_last (hb : b = statusInstr) (h : x.rem = 0) :
    x.instrStep p b = { x.addCrc p b with instr := b, state := .crcLo } :=
  (if_neg (not_not.2 hb)).trans (if_pos h)

theorem instrStep_params (hb : b = statusInstr) (h : x.rem ≠ 0) :
    x.instrStep p b = { x.addCrc p b with instr := b, win := 0, state := .params } :=
  (if_neg (not_not.2 hb)).trans (if_neg h)

/-- Settles O45: the three lines of R221. -/
theorem rxbyteChecksInstruction : Obligations.RxbyteChecksInstruction := by
  intro b s hfault hstate
  have hexec := exec_rxbyte_of_receiverStep hfault (receiverStep_instr hstate b)
  refine ⟨fun hb => ?_, fun hb hrem => ?_, fun hb hrem => ?_⟩
  · rw [hexec, instrStep_other hb]; rfl
  · rw [hexec, instrStep_last hb hrem]; rfl
  · rw [hexec, instrStep_params hb hrem]; rfl

/-! ### PARAMS (43_packet_framer.md R222) -/

theorem receiverStep_params (hstate : x.state = .params) (hrem : x.rem ≠ 0) (b : Byte) :
    receiverStep p x b = some (x.paramsStep p b) := by
  simp only [receiverStep, hstate, if_neg hrem]

/-- Line 1 of R222: the byte enters the CRC and is counted. -/
def counted (p : Params) (x : Rx) (b : Byte) : Rx := { x.addCrc p b with rem := ⟨x.rem.val - 1, by omega⟩ }

/-- The `FD` after `FF FF FD` is dropped. -/
def dropped (p : Params) (x : Rx) : Rx := { counted p x 0xFD with win := 0 }

/-- A parameter is stored at `R[RN]`. -/
def stored (p : Params) (x : Rx) (b : Byte) (h : x.rn.val < 8) : Rx :=
  { counted p x b with r := x.r.set x.rn.val b, rn := ⟨x.rn.val + 1, by omega⟩, win := win x.win b }

theorem counted_rem_eq_zero_iff (hrem : x.rem ≠ 0) : (counted p x b).rem = 0 ↔ x.rem.val = 1 := by
  have hpos : x.rem.val ≠ 0 := fun h => hrem (Fin.ext h)
  rw [Fin.ext_iff]
  show x.rem.val - 1 = 0 ↔ _
  omega

theorem endParam_of_more (h : x.rem ≠ 0) : x.endParam = x := if_neg h

theorem endParam_of_last (h : x.rem = 0) (hwin : x.win ≠ 3) : x.endParam = { x with state := .crcLo } :=
  (if_pos h).trans (if_neg hwin)

theorem endParam_of_open (h : x.rem = 0) (hwin : x.win = 3) : x.endParam = x.fail .badStuffing :=
  (if_pos h).trans (if_pos hwin)

theorem paramsStep_escape (hwin : x.win = 3) : x.paramsStep p 0xFD = (dropped p x).endParam :=
  (if_pos hwin).trans (if_pos rfl)

theorem paramsStep_unescaped (hwin : x.win = 3) (hb : b ≠ 0xFD) :
    x.paramsStep p b = (counted p x b).fail .badStuffing :=
  (if_pos hwin).trans (if_neg hb)

theorem paramsStep_full (hwin : x.win ≠ 3) (hfull : x.rn.val = 8) :
    x.paramsStep p b = (counted p x b).fail .paramOverflow :=
  (if_neg hwin).trans (dif_neg (Nat.not_lt.2 hfull.ge))

theorem paramsStep_room (hwin : x.win ≠ 3) (hroom : x.rn.val < 8) :
    x.paramsStep p b = (stored p x b hroom).endParam :=
  (if_neg hwin).trans (dif_pos hroom)

/-- Settles O46, along the branches of R222. -/
theorem rxbyteTakesParameter : Obligations.RxbyteTakesParameter := by
  intro b s hfault hstate hrem
  have hlast := counted_rem_eq_zero_iff (p := s.par) (b := b) hrem
  refine ⟨_, exec_rxbyte_of_receiverStep hfault (receiverStep_params hstate hrem b), ?_⟩
  by_cases hwin : s.rx.win = 3
  · by_cases hb : b = 0xFD
    · subst hb
      rw [paramsStep_escape hwin]
      by_cases hone : s.rx.rem.val = 1
      · rw [endParam_of_last (x := dropped s.par s.rx) (hlast.2 hone) (by simp [dropped])]
        simp [withRx, dropped, counted, Rx.addCrc, hwin, hone]
      · rw [endParam_of_more (x := dropped s.par s.rx) (mt hlast.1 hone)]
        simp [withRx, dropped, counted, Rx.addCrc, hwin, hone, hstate]
    · rw [paramsStep_unescaped hwin hb]
      simp [withRx, counted, Rx.addCrc, Rx.fail, hwin]
      exact hb
  · by_cases hfull : s.rx.rn.val = 8
    · rw [paramsStep_full hwin hfull]
      simp [withRx, counted, Rx.addCrc, Rx.fail, hwin, hfull]
    · have hroom : s.rx.rn.val < 8 := by omega
      rw [paramsStep_room hwin hroom]
      by_cases hone : s.rx.rem.val = 1
      · by_cases hopen : win s.rx.win b = 3
        · rw [endParam_of_open (x := stored s.par s.rx b hroom) (hlast.2 hone) hopen]
          simp [withRx, stored, counted, Rx.addCrc, Rx.fail, hwin, hfull, hone, hopen, Vector.toList_set]
        · rw [endParam_of_last (x := stored s.par s.rx b hroom) (hlast.2 hone) hopen]
          simp [withRx, stored, counted, Rx.addCrc, hwin, hfull, hone, hopen, Vector.toList_set]
      · rw [endParam_of_more (x := stored s.par s.rx b hroom) (mt hlast.1 hone)]
        simp [withRx, stored, counted, Rx.addCrc, hwin, hfull, hone, hstate, Vector.toList_set]

/-! ### CRC_LO and CRC_HI (43_packet_framer.md R223, R224) -/

theorem receiverStep_crcLo (hstate : x.state = .crcLo) (b : Byte) :
    receiverStep p x b = some (x.crcLoStep b) := by
  simp only [receiverStep, hstate]

theorem receiverStep_crcHi (hstate : x.state = .crcHi) (b : Byte) :
    receiverStep p x b = some (x.crcHiStep p b) := by
  simp only [receiverStep, hstate]

theorem crcHiStep_match (h : ofBytes x.crcLo b = x.crc ^^^ p.crcXorOut) :
    x.crcHiStep p b = { x with state := .done, done := true, ok := true, cause := .none } :=
  if_pos h

theorem crcHiStep_mismatch (h : ofBytes x.crcLo b ≠ x.crc ^^^ p.crcXorOut) :
    x.crcHiStep p b = x.fail .crcMismatch :=
  if_neg h

theorem ofBytes_eq_iff (lo hi : Byte) (h : Half) : ofBytes lo hi = h ↔ lo.toNat + 256 * hi.toNat = h.toNat := by
  rw [← BitVec.toNat_inj, toNat_ofBytes]

/-- Settles O47: the field compared as a number is the field compared as bits. -/
theorem rxbyteChecksCrc : Obligations.RxbyteChecksCrc := by
  refine fun b s hfault => ⟨fun hstate => ?_, fun hstate h => ?_, fun hstate h => ?_⟩
  · exact exec_rxbyte_of_receiverStep hfault (receiverStep_crcLo hstate b)
  · rw [exec_rxbyte_of_receiverStep hfault (receiverStep_crcHi hstate b), crcHiStep_match ((ofBytes_eq_iff ..).2 h)]
    rfl
  · rw [exec_rxbyte_of_receiverStep hfault (receiverStep_crcHi hstate b),
      crcHiStep_mismatch (mt (ofBytes_eq_iff ..).1 h)]
    rfl

end Sys2Proof.Proofs.PacketReceiver
end

section
/-! PROOFS. The statements of spec/43_packet_framer.md about whole receptions: a `PKT.STATUS` packet is its bytes fed to
`RXBYTE` (R216, R233), it is received after `RXARM` with its id, and a packet `BUILD` frames is received back (R235). -/

namespace Sys2Proof.Proofs.PacketReception

open Sys2Proof Sys2Proof.Machine Sys2Proof.Proofs.Scope Sys2Proof.Proofs.Registers Sys2Proof.Proofs.Encoding
  Sys2Proof.Proofs.PacketFramer Sys2Proof.Proofs.PacketReceiver

variable {s t : State} {p : Params} {x y z : Rx}

/-! ### Fed bytes as a sequence of `RXBYTE` (30_encoding.md R113) -/

theorem execSeq_rxFeedOps_of_operational (bytes : List Byte) (hfault : s.status.fault = false) :
    execSeq (rxFeedOps bytes) s = feedBytes bytes s := by
  induction bytes generalizing s with
  | nil => rfl
  | cons b bs ih =>
    show andThen (exec (.rxbyte b) s) (execSeq (rxFeedOps bs)) = andThen (feedByte b s) (feedBytes bs)
    rw [exec_rxbyte_of_operational b hfault]
    cases hb : feedByte b s with
    | next t => exact ih ((feedByte_sameMotor hb).fault.trans hfault)
    | fault f => rfl
    | refused f => rfl

theorem execSeq_rxFeedOps_of_faulted {bytes : List Byte} (hbytes : bytes ≠ []) (hfault : s.status.fault = true) :
    execSeq (rxFeedOps bytes) s = .next s.refuse := by
  cases bytes with
  | nil => exact absurd rfl hbytes
  | cons b bs =>
    have hrest : ∀ i ∈ rxFeedOps bs, i ≠ .nop ∧ i ≠ .reset := by
      simp only [rxFeedOps, List.mem_map]
      rintro i ⟨c, -, rfl⟩
      exact ⟨nofun, nofun⟩
    show andThen (exec (.rxbyte b) s) (execSeq (rxFeedOps bs)) = .next s.refuse
    rw [exec_of_faulted (i := .rxbyte b) nofun nofun hfault, andThen_next]
    exact execSeq_of_refused hrest hfault

/-- After a byte, whatever the receiver's state before it, a parameter is still to come in PARAMS (R221, R222). -/
theorem feedByte_receiverInv {b : Byte} (h : feedByte b s = .next t) : ReceiverInv t.rx := by
  rcases feedByte_eq_next h with ⟨hended, rfl⟩ | ⟨hstate, rfl⟩ | ⟨-, rfl⟩ | ⟨-, rfl⟩ | ⟨-, rfl⟩ | ⟨-, rfl⟩
    | ⟨hstate, -, rfl⟩ | ⟨-, rfl⟩ | ⟨-, rfl⟩
  · rcases hended with e | e <;> exact receiverInv_of_state (by simp [e]) (by simp [e])
  · exact huntStep_receiverInv _ b hstate
  · exact idStep_receiverInv _ _ b
  · exact lenLoStep_receiverInv _ _ b
  · exact lenHiStep_receiverInv _ _ b
  · exact instrStep_receiverInv _ _ b
  · exact paramsStep_receiverInv _ b hstate
  · exact receiverInv_of_state nofun nofun
  · exact crcHiStep_receiverInv _ _ b

theorem feedByte_completes_of_rem (b : Byte) (hrem : s.rx.state = .params → s.rx.rem ≠ 0) :
    ∃ t, feedByte b s = .next t := by
  unfold feedByte
  cases hstate : s.rx.state with
  | params => exact ⟨_, if_neg (hrem hstate)⟩
  | _ => exact ⟨_, rfl⟩

theorem feedBytes_completes_of_rem (bytes : List Byte) (hrem : s.rx.state = .params → s.rx.rem ≠ 0) :
    ∃ t, feedBytes bytes s = .next t := by
  induction bytes generalizing s with
  | nil => exact ⟨_, rfl⟩
  | cons b bs ih =>
    obtain ⟨u, hu⟩ := feedByte_completes_of_rem b hrem
    obtain ⟨hparams, -⟩ := feedByte_receiverInv hu
    obtain ⟨t, ht⟩ := ih hparams
    exact ⟨t, andThen_eq_next.2 ⟨u, hu, ht⟩⟩

theorem exec_pktStatus_of_operational (id : Byte) (params : List Byte) (crc : Half) (hfault : s.status.fault = false) :
    exec (.pktStatus id params crc) s = feedBytes (framePre id statusInstr params ++ crcField crc) s :=
  gated_of_operational hfault

/-- Settles O51: in the Faulted state both sides are one refusal, else both feed the bytes. -/
theorem statusPacketIsFedByteByByte : Obligations.StatusPacketIsFedByteByByte := by
  intro id params crc s
  cases hfault : s.status.fault with
  | true =>
    have hrefused : exec (.pktStatus id params crc) s = .next s.refuse := exec_of_faulted nofun nofun hfault
    have hbytes : framePre id 0x55 params ++ [crc.extractLsb' 0 8, crc.extractLsb' 8 8] ≠ [] := by simp
    exact ⟨hrefused.trans (execSeq_rxFeedOps_of_faulted hbytes hfault).symm,
      fun _ => ⟨_, hrefused, rfl, rfl, rfl, rfl, rfl, rfl, hfault, rfl⟩⟩
  | false =>
    have hfed := exec_pktStatus_of_operational id params crc hfault
    refine ⟨hfed.trans (execSeq_rxFeedOps_of_operational _ hfault).symm, fun hrem => ?_⟩
    obtain ⟨t, ht⟩ := feedBytes_completes_of_rem (framePre id statusInstr params ++ crcField crc) hrem
    exact ⟨t, hfed.trans ht, hfault ▸ feedBytes_frame ht⟩

/-! ### The receive half over a sequence of bytes -/

/-- What a sequence of bytes makes of the receive half, when each is accepted. -/
def receiverRun (p : Params) (x : Rx) (bytes : List Byte) : Option Rx := bytes.foldlM (receiverStep p) x

theorem receiverRun_cons (p : Params) (x : Rx) (b : Byte) (bs : List Byte) :
    receiverRun p x (b :: bs) = (receiverStep p x b).bind (receiverRun p · bs) := rfl

theorem receiverRun_append_eq_some {bs cs : List Byte} :
    receiverRun p x (bs ++ cs) = some z ↔ ∃ y, receiverRun p x bs = some y ∧ receiverRun p y cs = some z := by
  simp [receiverRun, List.foldlM_append, Option.bind_eq_some_iff]

/-- Bytes the receive half accepts are performed, and change nothing else. -/
theorem feedBytes_of_receiverRun {bytes : List Byte} (h : receiverRun s.par x bytes = some y) :
    feedBytes bytes (withRx s x) = .next (withRx s y) := by
  induction bytes generalizing x with
  | nil => cases h; rfl
  | cons b bs ih =>
    obtain ⟨u, hu, hy⟩ := Option.bind_eq_some_iff.1 h
    have hb : feedByte b (withRx s x) = .next (withRx s u) := feedByte_of_receiverStep hu
    rw [feedBytes_cons, hb, andThen_next, ih hy]

theorem receiverRun_cons_of_step {b : Byte} (h : receiverStep p x b = some y) (bs : List Byte) :
    receiverRun p x (b :: bs) = receiverRun p y bs := by
  rw [receiverRun_cons, h, Option.bind_some]

/-! ### The header fields (43_packet_framer.md R217 to R220) -/

/-- The receive half with the header fields of a packet for it received. -/
def headed (p : Params) (x : Rx) (id : Byte) (len : Half) (rem : Fin 11) : Rx :=
  { x.arm p id with
    state := .instr, id := id, len := len, rem := rem
    crc := crcRun p.crcPoly p.crcInit (header ++ [id, lowByte len, highByte len]) }

theorem receiverRun_header (p : Params) (x : Rx) (id : Byte) :
    receiverRun p (x.arm p id) header = some { x.arm p id with crc := crcHdr p, state := .id } := by
  rfl

/-- The two length bytes give back the length field. -/
theorem lowByte_add_highByte (len : Half) :
    (lowByte len).setWidth 16 + (highByte len ++ 0x00#8) = len := by
  have hlow : ((lowByte len).setWidth 16).toNat = (lowByte len).toNat := by
    have := (lowByte len).isLt
    rw [BitVec.toNat_setWidth]
    omega
  have hbytes := toNat_ofBytes (lowByte len) (highByte len)
  rw [ofBytes_lowByte_highByte] at hbytes
  apply BitVec.eq_of_toNat_eq
  rw [toNat_add_highByte (by rw [hlow]; exact (lowByte len).isLt), hlow, hbytes]

theorem receiverRun_headed (p : Params) (x : Rx) (id : Byte) {len : Half} {rem : Fin 11} (h : len.toNat = rem.val + 3) :
    receiverRun p (x.arm p id) (header ++ [id, lowByte len, highByte len]) = some (headed p x id len rem) := by
  refine receiverRun_append_eq_some.2 ⟨_, receiverRun_header p x id, ?_⟩
  rw [receiverRun_cons_of_step ((receiverStep_id rfl id).trans (congrArg some (idStep_expected rfl))),
    receiverRun_cons_of_step (receiverStep_lenLo rfl _), receiverRun_cons_of_step (receiverStep_lenHi rfl _)]
  have hlen := lowByte_add_highByte len
  have hrem := rem.isLt
  rw [lenHiStep_legal (by simp only [Rx.lenLoStep, hlen]; omega) (by simp only [Rx.lenLoStep, hlen]; omega)]
  simp only [Rx.lenLoStep, hlen, h, Nat.add_sub_cancel]
  rfl

/-! ### The parameters (43_packet_framer.md R221, R222) -/

/-- The receive half expects `n` more stuffed parameter bytes with `m` of `FF FF FD` matched, and then the CRC field. -/
structure Awaits (x : Rx) (m : Fin 4) (n : Nat) : Prop where
  state : x.state = if n = 0 then .crcLo else .params
  win : x.win = m
  rem : x.rem.val = n

/-- Between the two, the given bytes entered the CRC and the given parameters were stored. -/
structure Collects (p : Params) (bytes params : List Byte) (x y : Rx) : Prop where
  crc : y.crc = crcRun p.crcPoly x.crc bytes
  rn : y.rn.val = x.rn.val + params.length
  r : y.r.toList = x.r.toList.take x.rn.val ++ params ++ x.r.toList.drop (x.rn.val + params.length)
  id : y.id = x.id
  len : y.len = x.len
  instr : y.instr = x.instr

theorem Collects.refl (p : Params) (x : Rx) : Collects p [] [] x x where
  crc := rfl
  rn := rfl
  r := by simp
  id := rfl
  len := rfl
  instr := rfl

theorem Collects.trans {bytes bytes' params params' : List Byte} (h : Collects p bytes params x y)
    (k : Collects p bytes' params' y z) : Collects p (bytes ++ bytes') (params ++ params') x z where
  crc := by rw [k.crc, h.crc, crcRun, crcRun, crcRun, List.foldl_append]
  rn := by rw [k.rn, h.rn, List.length_append, Nat.add_assoc]
  r := by
    have hx : x.r.toList.length = 8 := Vector.length_toList
    have hfits : x.rn.val + params.length < 9 := h.rn ▸ y.rn.isLt
    have hstored : (x.r.toList.take x.rn.val ++ params).length = x.rn.val + params.length := by
      rw [List.length_append, List.length_take, hx]
      omega
    rw [k.r, h.r, h.rn, List.take_left' hstored, List.drop_append, hstored, Nat.add_sub_cancel_left, List.drop_drop,
      List.drop_eq_nil_of_le (by omega), List.length_append]
    simp [Nat.add_assoc]
  id := k.id.trans h.id
  len := k.len.trans h.len
  instr := k.instr.trans h.instr

/-- Line 4 of R222 waits for the rest of the parameters, and after the last goes on to the CRC field. -/
theorem endParam_awaits {n : Nat} (hstate : x.state = .params) (hrem : x.rem.val = n) (hwin : n = 0 → x.win ≠ 3) :
    Awaits x.endParam x.win n ∧ Collects p [] [] x x.endParam := by
  by_cases hn : n = 0
  · have hzero : x.rem = 0 := Fin.ext (hrem.trans hn)
    rw [endParam_of_last hzero (hwin hn)]
    exact ⟨⟨by simp [hn], rfl, hrem⟩, ⟨rfl, rfl, by simp, rfl, rfl, rfl⟩⟩
  · have hmore : x.rem ≠ 0 := fun h => hn (hrem.symm.trans (congrArg Fin.val h))
    rw [endParam_of_more hmore]
    exact ⟨⟨by simp [hn, hstate], rfl, hrem⟩, .refl p x⟩

theorem Awaits.receiverStep_eq {m : Fin 4} {n : Nat} (h : Awaits x m (n + 1)) (b : Byte) :
    x.state = .params ∧ receiverStep p x b = some (x.paramsStep p b) := by
  obtain ⟨hstate, -, hrem⟩ := h
  have hmore : x.rem ≠ 0 := fun e => absurd (hrem.symm.trans (congrArg Fin.val e)) (Nat.succ_ne_zero n)
  exact ⟨by simpa using hstate, receiverStep_params (by simpa using hstate) hmore b⟩

theorem stored_collects (p : Params) (x : Rx) (b : Byte) (hroom : x.rn.val < 8) :
    Collects p [b] [b] x (stored p x b hroom) where
  crc := rfl
  rn := rfl
  r := by
    have hx : x.rn.val < x.r.toList.length := by rw [Vector.length_toList]; exact hroom
    show (x.r.set x.rn.val b).toList = _
    rw [Vector.toList_set, List.set_eq_take_append_cons_drop, if_pos hx]
    simp
  id := rfl
  len := rfl
  instr := rfl

/-- A parameter byte outside a pattern is stored; the last one must not complete a pattern. -/
theorem receiverStep_stores {m : Fin 4} {n : Nat} {b : Byte} (h : Awaits x m (n + 1)) (hm : m ≠ 3)
    (hroom : x.rn.val < 8) (hlast : n = 0 → win m b ≠ 3) :
    ∃ y, receiverStep p x b = some y ∧ Collects p [b] [b] x y ∧ Awaits y (win m b) n := by
  obtain ⟨hstate, hstep⟩ := h.receiverStep_eq (p := p) b
  obtain ⟨-, rfl, hrem⟩ := h
  obtain ⟨hawaits, hcollects⟩ := endParam_awaits (p := p) (x := stored p x b hroom) (n := n) hstate
    (by show x.rem.val - 1 = n; omega) hlast
  exact ⟨_, hstep.trans (congrArg some (paramsStep_room hm hroom)), (stored_collects p x b hroom).trans hcollects,
    hawaits⟩

/-- The `FD` that stuffing inserted is dropped. -/
theorem receiverStep_drops {n : Nat} (h : Awaits x 3 (n + 1)) :
    ∃ y, receiverStep p x 0xFD = some y ∧ Collects p [0xFD] [] x y ∧ Awaits y 0 n := by
  obtain ⟨hstate, hstep⟩ := h.receiverStep_eq (p := p) 0xFD
  obtain ⟨-, hwin, hrem⟩ := h
  obtain ⟨hawaits, hcollects⟩ := endParam_awaits (p := p) (x := dropped p x) (n := n) hstate
    (by show x.rem.val - 1 = n; omega) (fun _ => by simp [dropped])
  have hdropped : Collects p [0xFD] [] x (dropped p x) :=
    ⟨rfl, rfl, by simp [dropped, counted, Rx.addCrc], rfl, rfl, rfl⟩
  exact ⟨_, hstep.trans (congrArg some (paramsStep_escape hwin)), hdropped.trans hcollects, hawaits⟩

/-- The receive half undoes the stuffing on the fly, from any match count on. -/
theorem receiverRun_stuffFrom {params : List Byte} {m : Fin 4} (h : Awaits x m (stuffFrom m params).1.length)
    (hm : m ≠ 3) (hroom : x.rn.val + params.length ≤ 8) :
    ∃ y, receiverRun p x (stuffFrom m params).1 = some y ∧ Collects p (stuffFrom m params).1 params x y
      ∧ y.state = .crcLo := by
  induction params generalizing x m with
  | nil => exact ⟨x, rfl, .refl p x, by simpa [stuffFrom] using h.state⟩
  | cons b bs ih =>
    rw [List.length_cons] at hroom
    by_cases hmatch : win m b = 3
    · have hstuff : (stuffFrom m (b :: bs)).1 = b :: 0xFD :: (stuffFrom 0 bs).1 := by simp [stuffFrom, hmatch]
      rw [hstuff] at h ⊢
      obtain ⟨u, hu, hxu, hawaits⟩ := receiverStep_stores (p := p) (b := b) h hm (by omega) (fun e => by simp at e)
      rw [hmatch] at hawaits
      obtain ⟨v, hv, huv, hawaits⟩ := receiverStep_drops (p := p) hawaits
      have hrn := (hxu.trans huv).rn
      obtain ⟨y, hy, hvy, hstate⟩ := ih hawaits (by decide) (by simp at hrn; omega)
      refine ⟨y, ?_, (hxu.trans huv).trans hvy, hstate⟩
      rw [receiverRun_cons_of_step hu, receiverRun_cons_of_step hv, hy]
    · have hstuff : (stuffFrom m (b :: bs)).1 = b :: (stuffFrom (win m b) bs).1 := by simp [stuffFrom, hmatch]
      rw [hstuff] at h ⊢
      obtain ⟨u, hu, hxu, hawaits⟩ := receiverStep_stores (p := p) (b := b) h hm (by omega) (fun _ => hmatch)
      have hrn := hxu.rn
      obtain ⟨y, hy, huy, hstate⟩ := ih hawaits hmatch (by simp at hrn; omega)
      exact ⟨y, (receiverRun_cons_of_step hu _).trans hy, hxu.trans huy, hstate⟩

/-- The receive half after the instruction byte of a response. -/
def instructed (p : Params) (x : Rx) (id : Byte) (len : Half) (rem : Fin 11) : Rx :=
  { headed p x id len rem with
    state := if rem.val = 0 then .crcLo else .params
    instr := statusInstr
    crc := crcRun p.crcPoly p.crcInit (header ++ [id, lowByte len, highByte len, statusInstr]) }

theorem receiverStep_instructed (p : Params) (x : Rx) (id : Byte) (len : Half) (rem : Fin 11) :
    receiverStep p (headed p x id len rem) statusInstr = some (instructed p x id len rem) := by
  rw [receiverStep_instr rfl]
  by_cases hrem : rem.val = 0
  · rw [instrStep_last rfl (Fin.ext hrem)]
    simp only [instructed, if_pos hrem]
    rfl
  · rw [instrStep_params rfl (fun h => hrem (congrArg Fin.val h))]
    simp only [instructed, if_neg hrem]
    rfl

theorem instructed_awaits (p : Params) (x : Rx) (id : Byte) (len : Half) (rem : Fin 11) :
    Awaits (instructed p x id len rem) 0 rem.val := ⟨rfl, rfl, rfl⟩

/-! ### The CRC field (43_packet_framer.md R223, R224) -/

/-- How a reception ends that reaches its CRC field: accepted exactly when the field is the expected value. -/
structure Verdict (expected crc : Half) (x y : Rx) : Prop where
  state : y.state = .done
  done : y.done = true
  accepted : crc = expected → y.ok = true ∧ y.cause = .none
  rejected : crc ≠ expected → y.ok = false ∧ y.cause = .crcMismatch
  id : y.id = x.id
  len : y.len = x.len
  instr : y.instr = x.instr
  rn : y.rn = x.rn
  r : y.r = x.r

theorem receiverRun_crcField (crc : Half) (h : x.state = .crcLo) :
    ∃ y, receiverRun p x (crcField crc) = some y ∧ Verdict (x.crc ^^^ p.crcXorOut) crc x y := by
  have hfield : ofBytes (lowByte crc) (highByte crc) = crc := ofBytes_lowByte_highByte crc
  rw [crcField, receiverRun_cons_of_step (receiverStep_crcLo h _), receiverRun_cons_of_step (receiverStep_crcHi rfl _)]
  refine ⟨_, rfl, ?_⟩
  by_cases hcrc : crc = x.crc ^^^ p.crcXorOut
  · rw [crcHiStep_match (x := x.crcLoStep (lowByte crc)) (hfield.trans hcrc)]
    exact ⟨rfl, rfl, fun _ => ⟨rfl, rfl⟩, fun h => absurd hcrc h, rfl, rfl, rfl, rfl, rfl⟩
  · rw [crcHiStep_mismatch (x := x.crcLoStep (lowByte crc)) (fun h => hcrc (hfield.symm.trans h))]
    exact ⟨rfl, rfl, fun h => absurd h hcrc, fun _ => ⟨rfl, rfl⟩, rfl, rfl, rfl, rfl, rfl⟩

/-! ### A whole response (43_packet_framer.md R233, R235) -/

/-- The receive half after a whole response that was awaited from a given receive half on. -/
structure Received (p : Params) (id : Byte) (params : List Byte) (crc : Half) (x y : Rx) : Prop where
  state : y.state = .done
  done : y.done = true
  accepted : crc = crc16 p (framePre id statusInstr params) → y.ok = true ∧ y.cause = .none
  rejected : crc ≠ crc16 p (framePre id statusInstr params) → y.ok = false ∧ y.cause = .crcMismatch
  id : y.id = id
  instr : y.instr = statusInstr
  len : y.len.toNat = params.length + 3 + (stuff params).2
  rn : y.rn.val = params.length
  r : y.r.toList = params ++ x.r.toList.drop params.length

/-- The length field of a packet that fits, and the stuffed bytes it leaves to come. -/
theorem lenField_rem {params : List Byte} (h : params.length ≤ 8) :
    ∃ rem : Fin 11, rem.val = (stuff params).1.length
      ∧ (lenField params.length (stuff params).2).toNat = rem.val + 3 := by
  obtain ⟨hlen, hmax⟩ := lenField_stuff (params := params) (decide_eq_true h)
  exact ⟨⟨(stuff params).1.length, by simp only [maxStuffed, maxParams] at hmax; omega⟩, rfl,
    hlen.trans (Nat.add_comm ..)⟩

theorem framePre_eq (id instr : Byte) (params : List Byte) :
    framePre id instr params = (header ++ [id, lowByte (lenField params.length (stuff params).2),
      highByte (lenField params.length (stuff params).2)]) ++ (instr :: (stuff params).1) := by
  simp [framePre]

theorem receiverRun_status (p : Params) (x : Rx) (id : Byte) {params : List Byte} (crc : Half)
    (h : params.length ≤ 8) :
    ∃ y, receiverRun p (x.arm p id) (framePre id statusInstr params ++ crcField crc) = some y
      ∧ Received p id params crc x y := by
  obtain ⟨rem, hrem, hlen⟩ := lenField_rem h
  have hawaits := instructed_awaits p x id (lenField params.length (stuff params).2) rem
  rw [hrem] at hawaits
  obtain ⟨u, hu, hcollects, hstate⟩ := receiverRun_stuffFrom (p := p) hawaits (by decide)
    (show 0 + params.length ≤ 8 by omega)
  obtain ⟨y, hy, hverdict⟩ := receiverRun_crcField (p := p) crc hstate
  have hcrc : u.crc ^^^ p.crcXorOut = crc16 p (framePre id statusInstr params) := by
    rw [hcollects.crc, framePre_eq]
    simp [crc16, crcRun, instructed, stuff]
  rw [hcrc] at hverdict
  refine ⟨y, ?_, ?_⟩
  · refine receiverRun_append_eq_some.2 ⟨u, ?_, hy⟩
    rw [framePre_eq]
    refine receiverRun_append_eq_some.2 ⟨_, receiverRun_headed p x id hlen, ?_⟩
    rw [receiverRun_cons_of_step (receiverStep_instructed ..)]
    exact hu
  · constructor
    case state => exact hverdict.state
    case done => exact hverdict.done
    case accepted => exact hverdict.accepted
    case rejected => exact hverdict.rejected
    case id => rw [hverdict.id, hcollects.id]; rfl
    case instr => rw [hverdict.instr, hcollects.instr]; rfl
    case len =>
      have hbytes := (stuffFrom_length 0 params).1
      rw [hverdict.len, hcollects.len]
      show (lenField params.length (stuff params).2).toNat = _
      rw [hlen, hrem, stuff]
      omega
    case rn => rw [hverdict.rn, hcollects.rn]; exact Nat.zero_add _
    case r =>
      rw [hverdict.r, hcollects.r]
      simp [instructed, headed, Rx.arm]

/-- Settles O52: the receive half takes the whole response, and the rest of the state is its frame. -/
theorem statusResponseIsReceived : Obligations.StatusResponseIsReceived := by
  intro id params crc s hfault hfit
  obtain ⟨y, hrun, hreceived⟩ := receiverRun_status s.par s.rx id crc hfit
  have harm : exec (.rxarm id) s = .next (withRx s (s.rx.arm s.par id)) := gated_pure_of_operational hfault
  have hfed := exec_pktStatus_of_operational (s := withRx s (s.rx.arm s.par id)) id params crc hfault
  exact ⟨_, withRx s y, harm, hfed.trans (feedBytes_of_receiverRun hrun), hreceived.state, hreceived.done, hreceived.id,
    hreceived.instr, hreceived.len, hreceived.rn, hreceived.r, hreceived.accepted, hreceived.rejected, rfl, rfl, rfl,
    rfl, rfl, rfl, rfl⟩

/-! ### A reception is not done before its last byte -/

theorem huntStep_done (p : Params) (x : Rx) (b : Byte) : (x.huntStep p b).done = x.done := by
  unfold Rx.huntStep
  split
  case h_4 => split <;> rfl
  all_goals rfl

theorem endParam_done (x : Rx) : x.endParam.state = .done ∨ x.endParam.done = x.done := by
  unfold Rx.endParam
  split
  · split
    · exact .inl rfl
    · exact .inr rfl
  · exact .inr rfl

theorem paramsStep_done (p : Params) (x : Rx) (b : Byte) :
    (x.paramsStep p b).state = .done ∨ (x.paramsStep p b).done = x.done := by
  by_cases hwin : x.win = 3
  · by_cases hb : b = 0xFD
    · rw [hb, paramsStep_escape hwin]
      exact endParam_done (dropped p x)
    · exact .inl (by rw [paramsStep_unescaped hwin hb]; rfl)
  · by_cases hroom : x.rn.val < 8
    · rw [paramsStep_room hwin hroom]
      exact endParam_done (stored p x b hroom)
    · exact .inl (by rw [paramsStep_full hwin (by omega)]; rfl)

/-- A byte ends the reception or leaves `rx_done`. -/
theorem receiverStep_done {b : Byte} (h : receiverStep p x b = some y) : y.state = .done ∨ y.done = x.done := by
  cases hstate : x.state <;> simp only [receiverStep, hstate] at h
  case idle | done => cases h
  case hunt => cases h; exact .inr (huntStep_done p x b)
  case id =>
    cases h
    by_cases hid : b = x.expect
    · exact .inr (by rw [idStep_expected hid])
    · exact .inl (by rw [idStep_other hid])
  case lenLo => cases h; exact .inr rfl
  case lenHi =>
    cases h
    by_cases hlegal : 3 ≤ (x.len + (b ++ 0x00#8)).toNat ∧ (x.len + (b ++ 0x00#8)).toNat ≤ 13
    · exact .inr (by rw [lenHiStep_legal hlegal.1 hlegal.2]; rfl)
    · exact .inl (by rw [lenHiStep_illegal hlegal]; rfl)
  case instr =>
    cases h
    by_cases hb : b = statusInstr
    · by_cases hrem : x.rem = 0
      · exact .inr (by rw [instrStep_last hb hrem]; rfl)
      · exact .inr (by rw [instrStep_params hb hrem]; rfl)
    · exact .inl (by rw [instrStep_other hb]; rfl)
  case params =>
    split at h
    · cases h
    · cases h; exact paramsStep_done p x b
  case crcLo => cases h; exact .inr rfl
  case crcHi =>
    cases h
    by_cases hcrc : ofBytes x.crcLo b = x.crc ^^^ p.crcXorOut
    · exact .inl (by rw [crcHiStep_match hcrc])
    · exact .inl (by rw [crcHiStep_mismatch hcrc]; rfl)

/-- A receive half that takes a byte is not done. -/
theorem state_ne_done_of_receiverStep {b : Byte} (h : receiverStep p x b = some y) : x.state ≠ .done := fun e => by
  simp only [receiverStep, e] at h
  cases h

theorem receiverRun_done {bytes : List Byte} (h : receiverRun p x bytes = some y) :
    y.state = .done ∨ y.done = x.done := by
  induction bytes generalizing x with
  | nil => cases h; exact .inr rfl
  | cons b bs ih =>
    obtain ⟨u, hu, hy⟩ := Option.bind_eq_some_iff.1 h
    rcases receiverStep_done hu with hdone | hkept
    · cases bs with
      | nil => cases hy; exact .inl hdone
      | cons c cs =>
        obtain ⟨v, hv, -⟩ := Option.bind_eq_some_iff.1 hy
        exact absurd hdone (state_ne_done_of_receiverStep hv)
    · exact (ih hy).imp_right (·.trans hkept)

/-- Bytes all accepted: before the last of them the reception is not done. -/
theorem receiverRun_take {bytes : List Byte} (hx : x.done = false) (h : receiverRun p x bytes = some y) {n : Nat}
    (hn : n < bytes.length) : ∃ z, receiverRun p x (bytes.take n) = some z ∧ z.done = false := by
  rw [← List.take_append_drop n bytes, List.drop_eq_getElem_cons hn] at h
  obtain ⟨z, hz, hrest⟩ := receiverRun_append_eq_some.1 h
  obtain ⟨u, hu, -⟩ := Option.bind_eq_some_iff.1 hrest
  have hkept := (receiverRun_done hz).resolve_left (state_ne_done_of_receiverStep hu)
  exact ⟨z, hz, hkept.trans hx⟩

/-! ### A built packet received back (43_packet_framer.md R235) -/

theorem execSeq_rxFeedOps_of_receiverRun {bytes : List Byte} (hfault : s.status.fault = false)
    (h : receiverRun s.par x bytes = some y) : execSeq (rxFeedOps bytes) (withRx s x) = .next (withRx s y) :=
  (execSeq_rxFeedOps_of_operational bytes (s := withRx s x) hfault).trans (feedBytes_of_receiverRun h)

/-- The first eight bytes of a packet with another instruction byte end the reception. -/
theorem receiverRun_instrMismatch (p : Params) (x : Rx) (id : Byte) {instr : Byte} {params : List Byte}
    (hinstr : instr ≠ statusInstr) (h : params.length ≤ 8) :
    ∃ y, receiverRun p (x.arm p id) ((framePacket p id instr params).take 8) = some y
      ∧ y.state = .done ∧ y.done = true ∧ y.ok = false ∧ y.cause = .instrMismatch
      ∧ y.id = id ∧ y.len.toNat = params.length + 3 + (stuff params).2 := by
  obtain ⟨rem, hrem, hlen⟩ := lenField_rem h
  have hbytes := (stuffFrom_length 0 params).1
  have hstart : (framePacket p id instr params).take 8
      = (header ++ [id, lowByte (lenField params.length (stuff params).2),
          highByte (lenField params.length (stuff params).2)]) ++ [instr] := by
    simp [framePacket, framePre, header]
  have hstep : receiverStep p (headed p x id (lenField params.length (stuff params).2) rem) instr = some _ :=
    (receiverStep_instr rfl instr).trans (congrArg some (instrStep_other hinstr))
  have hrun := receiverRun_append_eq_some.2
    ⟨_, receiverRun_headed p x id hlen, (receiverRun_cons_of_step hstep []).trans rfl⟩
  rw [hstart]
  refine ⟨_, hrun, rfl, rfl, rfl, rfl, rfl, ?_⟩
  show (lenField params.length (stuff params).2).toNat = _
  rw [hlen, hrem, stuff]
  omega

/-- Settles O53: a packet with instruction 0x55 is a response with the right CRC field, and any other ends at its
eighth byte. -/
theorem builtPacketRoundTrips : Obligations.BuiltPacketRoundTrips := by
  intro id instr s hfault
  have hfit : s.tx.staged.length ≤ 8 := staged_length_le s.tx
  have hbuild : exec (.build id instr) s = .next (buildPacket id instr s) := gated_pure_of_operational hfault
  have harm : exec (.rxarm id) (buildPacket id instr s)
      = .next (withRx (buildPacket id instr s) (s.rx.arm s.par id)) := gated_pure_of_operational hfault
  by_cases hinstr : instr = 0x55
  · subst hinstr
    obtain ⟨y, hrun, hreceived⟩ := receiverRun_status s.par s.rx id
      (crc16 s.par (framePre id statusInstr s.tx.staged)) hfit
    have hpacket : (buildPacket id 0x55 s).txPacket
        = framePre id statusInstr s.tx.staged ++ crcField (crc16 s.par (framePre id statusInstr s.tx.staged)) :=
      buildPacket_txPacket id 0x55 s
    have hlength : (buildPacket id 0x55 s).tx.len = (buildPacket id 0x55 s).txPacket.length := by
      rw [buildPacket_txPacket]; rfl
    rw [← hpacket] at hrun
    obtain ⟨hok, -⟩ := hreceived.accepted rfl
    have hrn := hreceived.rn
    have hr := hreceived.r
    rw [staged_length] at hrn
    refine ⟨_, _, withRx (buildPacket id 0x55 s) y, hbuild, harm, fun _ => ⟨?_, hreceived.state, hreceived.done, hok,
      rfl, hreceived.id, hreceived.instr, hrn, ?_, fun n w hn hw => ?_⟩, fun h => absurd rfl h⟩
    · exact execSeq_rxFeedOps_of_receiverRun (s := buildPacket id 0x55 s) hfault hrun
    · show y.r.toList.take s.tx.pn.val = s.tx.staged
      rw [hr, ← staged_length, List.take_left]
    · obtain ⟨z, hz, hdone⟩ := receiverRun_take rfl hrun (hlength ▸ hn)
      have hfed := execSeq_rxFeedOps_of_receiverRun (s := buildPacket id 0x55 s) hfault hz
      cases hfed.symm.trans hw
      exact hdone
  · obtain ⟨y, hrun, hended⟩ := receiverRun_instrMismatch s.par s.rx id hinstr hfit
    rw [staged_length] at hended
    refine ⟨_, _, withRx (buildPacket id instr s) y, hbuild, harm, fun h => absurd h hinstr, fun _ => ⟨?_, hended⟩⟩
    rw [buildPacket_txPacket]
    exact execSeq_rxFeedOps_of_receiverRun (s := buildPacket id instr s) hfault hrun

end Sys2Proof.Proofs.PacketReception
end

section
/-! PROOFS. The statements of spec/44_system_ops.md: what `NOP` (R260), `RESET` (R261) and the reserved operation codes
(R262) answer. None of them passes the gate of the Faulted state, so each answer holds in every state. -/

namespace Sys2Proof.Proofs.SystemOps

open Sys2Proof Sys2Proof.Machine

/-! ### What the system operations answer -/

theorem exec_nop (s : State) : exec .nop s = .next s.perform := rfl

theorem exec_reset (s : State) : exec .reset s = .next s.restoreReset := rfl

theorem exec_reserved {i : Instr} (s : State) (hi : i = .reservedC ∨ i = .reservedD ∨ i = .reservedE) :
    exec i s = .next s.refuse := by
  rcases hi with rfl | rfl | rfl <;> rfl

/-! ### The memories and the parameter files after reset (10_state.md R44)

The model lists no cell of a reset memory, so R44's zeros are what an unlisted address reads as. -/

theorem read_resetWindow (a : Nat) : Vwe.reset.buf.read a = 0 := Memory.read_nil a

theorem read_resetTxBuffer (a : Nat) : Tx.reset.buf.read a = 0 := Memory.read_nil a

theorem resetStagingFile_toList : Tx.reset.p.toList = List.replicate 8 0 := Vector.toList_replicate

theorem resetReceiveFile_toList : Rx.reset.r.toList = List.replicate 8 0 := Vector.toList_replicate

/-! ### The obligations -/

/-- Settles O9: `NOP` is performed without a look at the state. -/
theorem nopOnlySetsOpOk : Obligations.NopOnlySetsOpOk := exec_nop

/-- Settles O10 with the restored state, part by part: a register's reset value is written in its unit's reset record,
and the two memories and the two parameter files go by their contents. -/
theorem resetRestoresEveryRegister : Obligations.ResetRestoresEveryRegister := by
  intro s
  refine ⟨s.restoreReset, exec_reset s, s.restoreReset_cfg, s.restoreReset_port, s.restoreReset_htc, ?vwe,
    s.restoreReset_pid, s.restoreReset_status, ?tx, ?rx⟩
  case vwe =>
    rw [s.restoreReset_vwe]
    exact ⟨rfl, read_resetWindow, rfl, rfl, rfl, rfl, rfl, rfl⟩
  case tx =>
    rw [s.restoreReset_tx]
    exact ⟨resetStagingFile_toList, rfl, read_resetTxBuffer, rfl, rfl⟩
  case rx =>
    rw [s.restoreReset_rx]
    exact ⟨rfl, rfl, rfl, rfl, rfl, rfl, rfl, rfl, rfl, rfl, resetReceiveFile_toList, rfl, rfl, rfl, rfl⟩

/-- Settles O11: a reserved code is refused without a look at the fault latch. -/
theorem reservedCodesAreRefused : Obligations.ReservedCodesAreRefused :=
  fun _ s hi => exec_reserved s hi

end Sys2Proof.Proofs.SystemOps
end

section
/-! PROOFS. The statements of spec/60_exceptions.md: fault entry (R283), the closed list of its causes (R282), what the
Faulted state refuses and how it is left (R285, R287), and the tick after a faulty tick (R297, R298). -/

namespace Sys2Proof.Proofs.Exceptions

open Sys2Proof Sys2Proof.Machine Sys2Proof.Proofs.Registers Sys2Proof.Proofs.Encoding Sys2Proof.Proofs.VelocityWindow

variable {s t : State}

/-! ### The ways into the Faulted state (R282) -/

theorem fault_contradiction (hfault : s.status.fault = false) (h : s.status.fault = true) (P : Prop) : P :=
  Bool.noConfusion (hfault.symm.trans h)

/-- The tick that took `s` to `t` ended Hard, by one of the two causes of R282 that are a tick's. -/
def EndsHard (s t : State) : Prop :=
  t.vwe.err = .hard
    ∧ ((s.vwe.cnt = countSentinel ∧ s.vwe.err = .soft ∧ t.status.cause = .consecutiveTickFaults)
      ∨ (s.vwe.cnt ≠ countSentinel ∧ t.status.cause = .velocityBound
          ∧ s.par.windowLength * s.par.maxPerTickCount < (wordValue t.vwe.vsum).natAbs))

theorem errLevel_eq_soft {e : ErrLevel} (hnone : e ≠ .none) (hhard : e ≠ .hard) : e = .soft := by
  cases e with
  | none => exact absurd rfl hnone
  | soft => rfl
  | hard => exact absurd rfl hhard

/-- Of the four outcomes of a tick, the two that enter the Faulted state. -/
theorem tickUpdate_endsHard (hfault : s.status.fault = false) (h : tickUpdate s = .next t)
    (ht : t.status.fault = true) : EndsHard s t := by
  obtain ⟨hhard, ⟨hcnt, rfl⟩ | ⟨hcnt, -, rfl⟩⟩ := tickUpdate_eq_next h
  · rcases faultyTick_cases s.ticked with ⟨-, e⟩ | ⟨hnone, e⟩ <;> rw [e] at ht ⊢
    · exact fault_contradiction hfault ht _
    · exact ⟨rfl, .inl ⟨hcnt, errLevel_eq_soft hnone hhard, rfl⟩⟩
  · rcases normalTick_cases s.ticked with ⟨hbeyond, e⟩ | ⟨-, e⟩ <;> rw [e] at ht ⊢
    · exact ⟨rfl, .inr ⟨hcnt, rfl, beyondBound_eq_true.1 hbeyond⟩⟩
    · exact fault_contradiction hfault ht _

/-- The control step of `CTICK` moves the fault latch in neither direction. -/
theorem controlAfterTick_fault (s : State) : (controlAfterTick s).status.fault = s.status.fault := by
  unfold controlAfterTick
  split <;> rfl

/-- After a tick that faulted there is no control step. -/
theorem controlAfterTick_of_faulted (hfault : s.status.fault = true) : controlAfterTick s = s := if_pos hfault

theorem execCtick_endsHard (hfault : s.status.fault = false) (h : execCtick s = .next t)
    (ht : t.status.fault = true) : EndsHard s t := by
  rcases execCtick_eq_next h with ⟨hfault', -⟩ | ⟨-, u, htick, rfl⟩
  · exact fault_contradiction hfault hfault' _
  · have hu : u.status.fault = true := (controlAfterTick_fault u).symm.trans ht
    rw [controlAfterTick_of_faulted hu]
    exact tickUpdate_endsHard hfault htick hu

/-- `SETPT` enters the Faulted state only for a target beyond the limit, and leaves the error latch (R183). -/
theorem setpointUpdate_raises {v : Word} (hfault : s.status.fault = false)
    (ht : (setpointUpdate v s).status.fault = true) :
    s.par.setpointMax < (wordValue v).natAbs ∧ (setpointUpdate v s).status.cause = .setpointRange
      ∧ (setpointUpdate v s).vwe.err = s.vwe.err := by
  rcases setpointUpdate_cases v s with ⟨-, e⟩ | ⟨hbeyond, e⟩ <;> rw [e] at ht ⊢
  · exact fault_contradiction hfault ht _
  · exact ⟨hbeyond, rfl, rfl⟩

theorem hallUpdate_fault {r : HallReading} (h : hallUpdate r s = .next t) : t.status.fault = s.status.fault := by
  rcases hallUpdate_eq_next h with ⟨-, -, rfl⟩ | ⟨-, -, rfl⟩ | ⟨-, -, rfl⟩ <;> rfl

/-- What is neither a tick nor `SETPT` never enters the Faulted state: not an `Error` event of `HALL`, not a
reception failure, not a refusal, not a reserved code. -/
theorem exec_raises_no_fault {i : Instr} (h : exec i s = .next t) (htick : i ≠ .tick) (hctick : i ≠ .ctick)
    (hsetpt : ∀ v, i ≠ .setpt v) : t.status.fault = true → s.status.fault = true := by
  cases hframer : isFramerOp i with
  | true => exact (exec_framer_sameMotor hframer h).fault.symm.trans
  | false =>
    cases i with
    | nop | reservedC | reservedD | reservedE => cases h; exact id
    | reset => cases h; exact nofun
    | tick => exact absurd rfl htick
    | ctick => exact absurd rfl hctick
    | setpt v => exact absurd rfl (hsetpt v)
    | hall r =>
      exact gated_next_elim (P := fun u => u.status.fault = true → s.status.fault = true) h id
        fun _ hnext => (hallUpdate_fault hnext).symm.trans
    | pidstep current =>
      exact gated_pure_elim (P := fun u => u.status.fault = true → s.status.fault = true)
        (f := fun v => pidUpdate v (wordValue current)) h id fun _ => id
    | _ => cases hframer

/-! ### The Faulted state lasts until reset (R285, R287) -/

/-- Every instruction but `RESET` leaves the faulted block's motor side, its latch and its cause alone. -/
theorem exec_sameMotor_of_faulted {i : Instr} (h : exec i s = .next t) (hreset : i ≠ .reset)
    (hfault : s.status.fault = true) : SameMotor s t := by
  by_cases hnop : i = .nop
  · subst hnop
    cases h; exact ⟨rfl, rfl, rfl, rfl, rfl, rfl⟩
  · cases (exec_of_faulted hnop hreset hfault).symm.trans h
    exact .refuse s

/-- What R287 asks of a step that does not leave the Faulted state. -/
theorem latched_of_sameMotor (h : SameMotor s t) (hfault : s.status.fault = true) :
    t.status.fault = true ∧ t.status.cause = s.status.cause ∧ t.vwe = s.vwe ∧ t.pid = s.pid :=
  ⟨h.fault.trans hfault, h.cause, h.vwe, h.pid⟩

/-! ### The tick after a faulty tick (R297, R298) -/

/-- The first faulty tick leaves the block Operational, under its invariant, with `err` Soft. -/
theorem exec_tick_sentinel_goes_soft (hs : s.Inv) (hfault : s.status.fault = false) (herr : s.vwe.err = .none) :
    ∃ u, exec .tick (withCount countSentinel s) = .next u ∧ u.Inv ∧ u.status.fault = false ∧ u.vwe.err = .soft
      ∧ u.cfg = s.cfg := by
  have hfound : (withCount countSentinel s).Inv := hs
  obtain ⟨hsoft, -⟩ := faultyTickEscalates (withCount countSentinel s) hfault rfl
  have htick := hsoft herr
  exact ⟨_, htick, exec_inv hfound htick, hfault, rfl, rfl⟩

/-- A tick at a second sentinel count ends Hard. -/
theorem exec_tick_sentinel_goes_hard (hfault : s.status.fault = false) (herr : s.vwe.err = .soft) :
    ∃ t, exec .tick (withCount countSentinel s) = .next t ∧ t.vwe.err = .hard ∧ t.status.fault = true
      ∧ t.status.cause = .consecutiveTickFaults := by
  obtain ⟨-, hhard⟩ := faultyTickEscalates (withCount countSentinel s) hfault rfl
  exact ⟨_, hhard herr, rfl, rfl, rfl⟩

/-- A normal tick clears the error latch unless its sum is beyond the bound. -/
theorem exec_tick_normal_recovers {c : Byte} (hc : c ≠ countSentinel) (hs : s.Inv) (hfault : s.status.fault = false) :
    ∃ t, exec .tick (withCount c s) = .next t
      ∧ (t.vwe.err = .none ∨ (t.vwe.err = .hard ∧ t.status.cause = .velocityBound
          ∧ s.par.windowLength * s.par.maxPerTickCount < (wordValue t.vwe.vsum).natAbs)) := by
  have hfound : (withCount c s).Inv := hs
  obtain ⟨t, htick, -, -, -, -, -, -, -, -, hwithin, hbeyond, -⟩ :=
    normalTickSlidesWindow (withCount c s) hfound hfault hc
  refine ⟨t, htick, ?_⟩
  rcases Nat.lt_or_ge (s.par.windowLength * s.par.maxPerTickCount) (wordValue t.vwe.vsum).natAbs with hlt | hge
  · obtain ⟨herr, -, -, hcause, -⟩ := hbeyond hlt
    exact .inr ⟨herr, hcause, hlt⟩
  · obtain ⟨herr, -⟩ := hwithin hge
    exact .inl herr

/-- Two ticks of `tickSeq` are two `TICK` operations, each at its count. -/
theorem tickSeq_pair {b c : Byte} {u : State} (hfirst : exec .tick (withCount b s) = .next u)
    (hsecond : exec .tick (withCount c u) = .next t) : tickSeq [b, c] s = .next t :=
  andThen_eq_next.2 ⟨u, hfirst, andThen_eq_next.2 ⟨t, hsecond, rfl⟩⟩

/-! ### The obligations -/

/-- Settles O14: R283's four writes are the definition of fault entry. -/
theorem faultEntryWritesFourRegisters : Obligations.FaultEntryWritesFourRegisters := fun _ _ => rfl

/-- Settles O12: what the gate, or a reserved code, answers is the refusal. -/
theorem faultedStateRefusesOperations : Obligations.FaultedStateRefusesOperations :=
  fun _ _ hfault hnop hreset => exec_of_faulted hnop hreset hfault

/-- Settles O15: `TICK`, `CTICK` and `SETPT` each with its causes, and nothing else raises a fault. -/
theorem faultCausesAreAClosedList : Obligations.FaultCausesAreAClosedList := by
  intro i s t hfault h ht
  cases i with
  | tick => exact .inl ⟨.inl rfl, tickUpdate_endsHard hfault ((exec_tick_of_operational hfault).symm.trans h) ht⟩
  | ctick => exact .inl ⟨.inr rfl, execCtick_endsHard hfault h ht⟩
  | setpt v =>
    obtain rfl := eq_of_gated_pure hfault h
    exact .inr ⟨v, rfl, setpointUpdate_raises hfault ht⟩
  | _ => exact fault_contradiction hfault (exec_raises_no_fault h nofun nofun nofun ht) _

/-- Settles O16: of the inputs a step can serve, only the external reset and `RESET` touch the latch. -/
theorem faultIsLatchedUntilReset : Obligations.FaultIsLatchedUntilReset := by
  intro s t hfault h
  rcases step_eq_next h with ⟨-, rfl⟩ | ⟨rest, hport, rfl⟩ | ⟨r, rest, i, hport, hdecode, hexec⟩
    | ⟨bytes, rest, e, -, -, hreceive⟩
  · exact .inl ⟨hfault, rfl, rfl, rfl⟩
  · exact .inr (.inl ⟨⟨rest, hport⟩, by rw [hport]; rfl⟩)
  · by_cases hreset : i = .reset
    · subst hreset
      cases hexec
      exact .inr (.inr ⟨⟨r, rest, hport, hdecode⟩, by rw [hport]; rfl⟩)
    · have hlatched := latched_of_sameMotor (exec_sameMotor_of_faulted hexec hreset hfault) hfault
      exact .inl hlatched
  · have hlatched := latched_of_sameMotor (receiveBytes_sameMotor hreceive) hfault
    exact .inl hlatched

/-- Settles O25: after the tick that goes Soft, a second sentinel count or a normal one. -/
theorem twoFaultyTicksEndHard : Obligations.TwoFaultyTicksEndHard := by
  intro s hs hfault herr
  obtain ⟨u, hfirst, hu, hufault, huerr, hcfg⟩ := exec_tick_sentinel_goes_soft hs hfault herr
  refine ⟨?second_sentinel, fun c hc => ?recovery⟩
  case second_sentinel =>
    obtain ⟨t, hsecond, ht⟩ := exec_tick_sentinel_goes_hard hufault huerr
    exact ⟨t, tickSeq_pair hfirst hsecond, ht⟩
  case recovery =>
    obtain ⟨t, hsecond, ht⟩ := exec_tick_normal_recovers hc hu hufault
    rw [State.par, hcfg] at ht
    exact ⟨t, tickSeq_pair hfirst hsecond, ht⟩

end Sys2Proof.Proofs.Exceptions
end

section
/-! PROOFS. The statements of spec/70_reset_and_hazards.md: the causes of reset have one effect (R310), the power-on
state of the block's own configuration (R311). -/

namespace Sys2Proof.Proofs.ResetAndHazards

open Sys2Proof Sys2Proof.Machine Sys2Proof.Proofs.SystemOps

variable {s : State}

/-- With the external reset input at the head of the port, the step resets the block without that input. -/
theorem step_of_externalReset {rest : List Input} (hport : s.port = .externalReset :: rest) :
    step s = .next (State.restoreReset { s with port := rest }) := by
  simp only [step, State.nextInput, hport]

/-- A reset reads nothing of the state but its configuration and the waiting inputs. -/
theorem restoreReset_of_port (s : State) (rest : List Input) :
    State.restoreReset { s with port := rest } = { State.resetWith s.cfg with port := rest } := rfl

/-- Settles O7: both causes restore the reset state of what is left once the input is taken from the port. -/
theorem resetCausesHaveOneEffect : Obligations.ResetCausesHaveOneEffect := by
  intro s rest hport
  rw [step_of_externalReset hport, exec_reset, restoreReset_of_port]
  exact ⟨rfl, rfl⟩

end Sys2Proof.Proofs.ResetAndHazards
end
